-- ==== Sys2Proof/Word.lean ====
section
/-! DEFINITION. The plain words of the Feldmar 480: bytes and 7-bit two-wire addresses. -/

namespace Sys2Proof

/-- One byte on a two-wire bus, in a command frame or in a response (spec 09, 9.6). -/
abbrev Byte := BitVec 8

/-- A 7-bit two-wire address (spec 00, Conventions, "Addresses"). -/
abbrev Addr := BitVec 7

/-- A 16-bit quantity of a frame, most significant byte first (R158). -/
abbrev Half := BitVec 16

end Sys2Proof
end

