-- ==== Sys2Proof/Syntax.lean ====
section
/-! DEFINITION. What the part is commanded with: one constructor of `Instr` for each row of the table of operations and
events (spec/opcode_table.json), with the row's operands. Argument bytes of a command frame are raw bytes (R159), so
that every value the arguments step can refuse is a term. -/

namespace Sys2Proof

/-- A host port, H0 to H3. -/
abbrev Port := Fin 4
/-- A segment, S0 to S7, and with it its arbiter and its engine. -/
abbrev Seg := Fin 8
/-- A route directory index, 0 to 47. -/
abbrev EntryIx := Fin 48
/-- A lease slot, 0 to 15 (R112). -/
abbrev Slot := Fin 16

/-- The direction of a transfer, as seen from the master of the bus. -/
inductive Dir where
  | write | read
  deriving DecidableEq, Repr

/-- One of the two lines of a segment. -/
inductive Line where
  | clock | data
  deriving DecidableEq, Repr

/-- The commands and events of the part, one constructor per row of the table. -/
inductive Instr where
  /-- DEVICE_RESET (R2): power-on or RESET; the operands are the levels sampled at ADR1:ADR0 and ADMSEL1:ADMSEL0. -/
  | deviceReset (adr admSel : BitVec 2)
  /-- START (R3) on a host port. -/
  | start (p : Port)
  /-- REPEATED_START (R15) on a host port. -/
  | repeatedStart (p : Port)
  /-- ADDRESS_BYTE (R4): the byte after a start, its 7-bit address and its direction. -/
  | addressByte (p : Port) (a : Addr) (d : Dir)
  /-- DATA_BYTE (R13): a byte the host writes. -/
  | dataByte (p : Port) (b : Byte)
  /-- HOST_ACKNOWLEDGE (R14): the host acknowledges the byte it was supplied. -/
  | hostAcknowledge (p : Port)
  /-- HOST_NOT_ACKNOWLEDGE (R14): the host does not acknowledge the byte it was supplied. -/
  | hostNotAcknowledge (p : Port)
  /-- STOP (R13) on a host port. -/
  | stop (p : Port)
  /-- ABANDON_EXPIRY (R19): the port's abandon timer reaches its limit. -/
  | abandonExpiry (p : Port)
  /-- WAIT_EXPIRY (R60, R61): the port's wait timer reaches its limit. -/
  | waitExpiry (p : Port)
  /-- LINE_CHECK_PASSED (R77): the lines, and in shared mode the foreign-busy flag, are found clear. -/
  | lineCheckPassed (m : Seg)
  /-- TARGET_ACKNOWLEDGES_ADDRESS (R79). -/
  | targetAcknowledgesAddress (m : Seg)
  /-- TARGET_NACK (R80): the target leaves its address unacknowledged. -/
  | targetNack (m : Seg)
  /-- WRITE_BYTE_ANSWERED (R81): the sampled answer; `acked` is true for an acknowledge. -/
  | writeByteAnswered (m : Seg) (acked : Bool)
  /-- READ_BYTE_FETCHED (R83): the byte clocked in from the target. -/
  | readByteFetched (m : Seg) (b : Byte)
  /-- CLOSING_BYTE_FINISHED (R90): a byte of a released transfer is finished; `acked` is the target's answer to it. -/
  | closingByteFinished (m : Seg) (acked : Bool)
  /-- STOP_COMPLETE (R91): the downstream stop completes. -/
  | stopComplete (m : Seg)
  /-- HOLD_TIMER_EXPIRY (R95): the engine's hold timer reaches its limit. -/
  | holdTimerExpiry (m : Seg)
  /-- RECOVERY_PULSE (R105): a pulse completes; `dataHigh` is the data line as tested after it. -/
  | recoveryPulse (m : Seg) (dataHigh : Bool)
  /-- RECOVERY_SUCCEEDED (R106): the recovery's stop completes with both lines high. -/
  | recoverySucceeded (m : Seg)
  /-- FOREIGN_START (R96): a start the part did not drive is observed on the segment. -/
  | foreignStart (m : Seg)
  /-- FOREIGN_STOP (R96): a stop the part did not drive is observed; `linesHigh` says that a line check made in this
  event finds both lines high (R97). -/
  | foreignStop (m : Seg) (linesHigh : Bool)
  /-- ARBITRATION_LOSS (R98): the engine finds that a foreign master has won the bus. -/
  | arbitrationLoss (m : Seg)
  /-- LEASE_EXPIRY (R123): the remaining time of the entry's HELD record reaches 0. -/
  | leaseExpiry (e : EntryIx)
  /-- INSR (R28 to R31), frame taken on port `p`. -/
  | insr (p : Port) (index visibleBase span segment targetBase visMask wpMask mode : Byte) (maxLease : Half)
  /-- DELR (R32). -/
  | delr (p : Port) (index : Byte)
  /-- MODR (R33, R34). -/
  | modr (p : Port) (index visMask wpMask mode : Byte) (maxLease : Half)
  /-- RDRT (R35). -/
  | rdrt (p : Port) (index : Byte)
  /-- DFLT (R36). -/
  | dflt (p : Port) (port segment : Byte)
  /-- LACQ (R117, R118). -/
  | lacq (p : Port) (index : Byte) (duration : Half) (wait : Byte)
  /-- LREN (R119). -/
  | lren (p : Port) (index token : Byte) (duration : Half)
  /-- LREL with a non-zero token (R120). -/
  | lrel (p : Port) (index token : Byte)
  /-- LREL with token 0 (R121), the table's row LREL_CANCEL. -/
  | lrelCancel (p : Port) (index : Byte)
  /-- LREV (R125). -/
  | lrev (p : Port) (index : Byte)
  /-- LQRY (R130). -/
  | lqry (p : Port) (index : Byte)
  /-- SCFG (R69, R70). -/
  | scfg (p : Port) (segment enable shared waitLimit holdLimit : Byte)
  /-- SSTA (R72). -/
  | ssta (p : Port) (segment : Byte)
  /-- SRCV (R110). -/
  | srcv (p : Port) (segment : Byte)
  /-- NFET (R138). -/
  | nfet (p : Port)
  /-- PSTA (R155). -/
  | psta (p : Port) (port : Byte)
  /-- RGHT (R150). -/
  | rght (p : Port) (port rights quota : Byte)
  /-- PRST (R152, R153). -/
  | prst (p : Port) (port : Byte)
  /-- IDNT (R156). -/
  | idnt (p : Port)
  /-- BAD_COMMAND (R144): a frame is taken whose first byte `code` is no command code. -/
  | badCommand (p : Port) (code : Byte)
  /-- LINE_HELD (R94): a device holds the line low where the engine needs it high. -/
  | lineHeld (m : Seg) (line : Line)
  /-- LINE_RELEASED (R94): the device releases the line. -/
  | lineReleased (m : Seg) (line : Line)
  deriving DecidableEq, Repr

end Sys2Proof

namespace Sys2Proof.Machine

/-- The 18 commands of R159. -/
inductive Op where
  | insr | delr | modr | rdrt | dflt | lacq | lren | lrel | lrev | lqry
  | scfg | ssta | srcv | nfet | psta | rght | prst | idnt
  deriving DecidableEq, Repr

/-- A command with its argument bytes, in the order of the frame (R159). -/
inductive Command where
  | insr (index visibleBase span segment targetBase visMask wpMask mode : Byte) (maxLease : Half)
  | delr (index : Byte)
  | modr (index visMask wpMask mode : Byte) (maxLease : Half)
  | rdrt (index : Byte)
  | dflt (port segment : Byte)
  | lacq (index : Byte) (duration : Half) (wait : Byte)
  | lren (index token : Byte) (duration : Half)
  | lrel (index token : Byte)
  | lrev (index : Byte)
  | lqry (index : Byte)
  | scfg (segment enable shared waitLimit holdLimit : Byte)
  | ssta (segment : Byte)
  | srcv (segment : Byte)
  | nfet
  | psta (port : Byte)
  | rght (port rights quota : Byte)
  | prst (port : Byte)
  | idnt
  deriving DecidableEq, Repr

end Sys2Proof.Machine
end

