-- ==== Sys2Proof/Config.lean ====
section
/-! DEFINITION. The fixed numbers of the part, each with the rule that gives it, and the one number the model
chooses: the resolution of its timers. -/

namespace Sys2Proof.Config

/-- The abandon limit, in ms; it cannot be configured (spec 01, 1.7; R19). -/
def abandonLimit : Nat := 100

/-- Bytes a command frame buffer stores (R6, R142). -/
def frameCapacity : Nat := 24

/-- Records a notice queue stores (R133, R137). -/
def noticeCapacity : Nat := 8

/-- Ports a grant queue holds at most (R57, R58). -/
def grantCapacity : Nat := 3

/-- Pulses after which a recovery that still finds the data line low fails (R105). -/
def pulseLimit : Nat := 9

/-- Attempts an address phase is given on a shared segment (R99). -/
def attemptLimit : Nat := 3

/-- The wait limit after device reset, in ms (R55). -/
def resetWaitLimit : Nat := 25

/-- The hold limit after device reset, in ms (R55). -/
def resetHoldLimit : Nat := 30

/-- The lease quota of every port after device reset (R116, R148). -/
def resetQuota : Nat := 4

/-- The own address without the straps (spec 00, Pins and straps). -/
def ownAddressBase : Addr := 0x2C#7

/-- Vendor code, part code and revision that IDNT reports (R156). -/
def vendorCode : Byte := 0xD7#8
@[inherit_doc vendorCode] def partCode : Byte := 0x48#8
@[inherit_doc vendorCode] def revision : Byte := 0x01#8

/-- Ticks of the model's timers in one millisecond. R115 says only that a lease timer counts "to a resolution finer
than one millisecond". DESIGN CHOICE, unsafe (log entry 2): a tick is one microsecond. -/
def ticksPerMs : Nat := 1000

end Sys2Proof.Config
end

