-- ==== Sys2Proof/Machine/State.lean ====
section
/-! DEFINITION. The state of the part as plain data, block by block (spec 00, "Blocks and how they work together"), its
value after device reset, and the reasons a step can stop. Fields marked MODEL'S OWN are not named by the spec: they
hold what the part presents on its lines, and the queue of waiting commands. -/

namespace Sys2Proof.Machine

/-- A timer: stopped, or running with its limit and the time passed since it started, both in ticks. -/
inductive Timer where
  | stopped
  | running (limit elapsed : Nat)
  deriving DecidableEq, Repr

/-! ### Host Port Unit (spec 01) -/

/-- The route snapshot (R9). `entry` is the entry index with its generation; none for a default-routed transfer. -/
structure Snapshot where
  entry  : Option (EntryIx × BitVec 8)
  seg    : Seg
  target : Addr
  deriving DecidableEq, Repr

/-- The current transfer: visible address, direction and route snapshot (R1). -/
structure Transfer where
  vaddr : Addr
  dir   : Dir
  snap  : Snapshot
  deriving DecidableEq, Repr

/-- The eight context states (spec 01, 1.1). The current transfer is present exactly in the states that carry one; a port
in RESPONSE_OUT has a read position, and `closed` once the host has not-acknowledged a byte (R8). -/
inductive Ctx where
  | idle
  | waiting (t : Transfer)
  | addressing (t : Transfer)
  | relayWrite (t : Transfer)
  | relayRead (t : Transfer)
  | broken (t : Transfer)
  | commandIn
  | responseOut (pos : Nat) (closed : Bool)
  deriving DecidableEq, Repr

/-- The refusal reasons of R20, codes 1 to 11. -/
inductive Reason where
  | leasedElsewhere | leaseRequired | writeProtected | segmentDisabled | segmentFault | waitExpired
  | routeGone | targetNack | arbitrationLost | broken | routedElsewhere
  deriving DecidableEq, Repr

/-- What the last-refusal record holds of a refused transfer (R20); `entry` is none for a default-routed transfer. -/
structure RefusalInfo where
  reason : Reason
  vaddr  : Addr
  dir    : Dir
  entry  : Option EntryIx
  deriving DecidableEq, Repr

/-- What the part drives on a host port besides its clock: an acknowledge, or a byte it supplies. A not-acknowledge, and a
byte the host reads as 0xFF because nothing is driven, are the absence of both. -/
inductive UpAct where
  | acknowledge
  | supply (b : Byte)
  deriving DecidableEq, Repr

/-- One Host Port Unit: the port context (R1), the last-refusal record (R20) and the port's lines. -/
structure HostPort where
  ctx          : Ctx
  addrExpected : Bool
  byteInHand   : Bool
  readClosed   : Bool
  abandon      : Timer
  /-- The clock line of the port is held low by the part (R12). -/
  clockHeld    : Bool
  /-- MODEL'S OWN: what the part drove on the port's data line in the latest event that reached the port. -/
  upstream     : List UpAct
  /-- The last-refusal record; none when cleared (reason NONE). -/
  lastRefusal  : Option RefusalInfo
  refusalCount : Nat
  deriving DecidableEq, Repr

/-! ### Route Directory (spec 02) -/

/-- The spans 1, 2, 4 and 8. -/
inductive Span where
  | one | two | four | eight
  deriving DecidableEq, Repr

/-- The modes of an entry; `opened` is OPEN. -/
inductive Mode where
  | opened | exclusive
  deriving DecidableEq, Repr

/-- A set of host ports, bit *n* for port H*n* (R158). -/
abbrev PortMask := BitVec 4

/-- The fields of an INSTALLED record (R22). `maxLease` is in ms. -/
structure Route where
  vbase    : Addr
  span     : Span
  seg      : Seg
  tbase    : Addr
  vis      : PortMask
  wp       : PortMask
  mode     : Mode
  maxLease : Nat
  deriving DecidableEq, Repr

/-- One entry record (R22): its generation, and its route when INSTALLED; none is FREE. -/
structure Entry where
  gen   : BitVec 8
  route : Option Route
  deriving DecidableEq, Repr

/-! ### Segment Arbiter (spec 04) -/

/-- The segment states (spec 04, 4.2). The holder is present exactly in ACTIVE, and a resume port only in RECOVERING (R56). -/
inductive SegState where
  | disabled
  | idle
  | active (holder : Port)
  | recovering (resume : Option Port)
  | fault
  deriving DecidableEq, Repr

/-- One segment record (R55). Limits are in ms; the grant queue is oldest first; one wait timer for each host port. -/
structure Arbiter where
  state          : SegState
  queue          : List Port
  waits          : Vector Timer 4
  enable         : Bool
  shared         : Bool
  waitLimit      : Nat
  holdLimit      : Nat
  disablePending : Bool
  lossCount      : Nat
  recoveryCount  : Nat
  deriving DecidableEq, Repr

/-! ### Segment Engine (spec 05, 06) -/

/-- The engine states (R73). -/
inductive EngState where
  | quiet | starting | address | writing | reading | stopping | recovering
  deriving DecidableEq, Repr

/-- Byte activity (R73). -/
inductive ByteAct where
  | none | clocking | slotOpen
  deriving DecidableEq, Repr

/-- An engine's hold timer (R73), which times each of the two lines by itself: "each period in which one line stays low is
timed from zero with the hold limit in force when the period began" (R97; R94; log entry 13). -/
structure HoldTimer where
  clock : Timer
  data  : Timer
  deriving DecidableEq, Repr

/-- The hold timer stopped: neither line is being timed. -/
def HoldTimer.stopped : HoldTimer := { clock := .stopped, data := .stopped }

/-- Where the recovery procedure of R105 stands: at its look (steps 1 and 2), with a pulse to drive (step 3), with that pulse
driven, its clock released and counted (step 3), or at the stop (step 4). R105 implies this state without naming it (log
entry 10). -/
inductive RecStep where
  | look | pulse | pulsing | stop
  deriving DecidableEq, Repr

/-- What an engine drives on its segment. -/
inductive BusAct where
  | start
  | repeatedStart
  | address (a : Addr) (d : Dir)
  | write (b : Byte)
  /-- the engine clocks a byte in from the target -/
  | fetch
  | acknowledge
  | notAcknowledge
  | stop
  | pulse
  deriving DecidableEq, Repr

/-- One engine record (R73) and the recovery context (R104). -/
structure Engine where
  state       : EngState
  served      : Option Port
  target      : Option (Addr × Dir)
  busOwned    : Bool
  activity    : ByteAct
  closing     : Bool
  hold        : HoldTimer
  foreignBusy : Bool
  retry       : Nat
  sharedMode  : Bool
  brokenPort  : Option Port
  pulses      : Nat
  recStep     : RecStep
  /-- The byte being clocked is the one of R90's third row, which no host receives (R101, "the discarded byte"). -/
  discarding  : Bool
  /-- MODEL'S OWN: what the engine drove on its segment in the latest event in which it drove anything. -/
  bus         : List BusAct
  deriving DecidableEq, Repr

/-! ### Lease Table (spec 07) -/

/-- PENDING with its order, or HELD with its token and the remaining time in ticks (R112, R115). -/
inductive LeaseStatus where
  | pending (order : Nat)
  | held (token : Byte) (remaining : Nat)
  deriving DecidableEq, Repr

/-- A lease record that is not FREE (R112). `requested` is in ms. -/
structure Lease where
  port      : Port
  entry     : EntryIx
  gen       : BitVec 8
  requested : Nat
  status    : LeaseStatus
  deriving DecidableEq, Repr

/-! ### Notice Queue (spec 08) -/

/-- The causes a LEASE_REVOKED carries as its detail (R134). -/
inductive RevokeCause where
  | byAdmin | routeRemoved | visibilityLost | cancelled
  deriving DecidableEq, Repr

/-- The causes a MESSAGE_BROKEN carries as its detail (R134). -/
inductive BreakCause where
  | arbitrationLost | holdExpired | recoveryForced
  deriving DecidableEq, Repr

/-- The eight notice kinds, each with the detail it carries (R134). -/
inductive NoticeKind where
  | leaseGranted
  | leaseExpired
  | leaseRevoked (cause : RevokeCause)
  | messageBroken (cause : BreakCause)
  | messageAbandoned
  | segmentRecovered
  | segmentFault
  | portReset (issuer : Port)
  deriving DecidableEq, Repr

/-- A notice record (R134). -/
structure Notice where
  kind  : NoticeKind
  seq   : BitVec 8
  entry : Option EntryIx
  seg   : Option Seg
  token : Byte
  deriving DecidableEq, Repr

/-- One Notice Queue with its alert line (R133). -/
structure NoticeQueue where
  records : List Notice
  seq     : BitVec 8
  lost    : Nat
  alert   : Bool
  deriving DecidableEq, Repr

/-! ### Command Unit (spec 09) -/

/-- A command frame buffer (R142). -/
structure FrameBuffer where
  bytes    : List Byte
  overlong : Bool
  deriving DecidableEq, Repr

/-- The status codes of R157; `noCommand` is NONE. -/
inductive Status where
  | ok | pending | accepted
  | badCommand | badLength | badArgument | denied
  | noEntry | conflict | reservedAddress | tableFull | quota | heldElsewhere | stale | notHeld | already | occupied
  | segBusy | segDisabled | lastAdmin
  | noCommand
  deriving DecidableEq, Repr

/-- A response record (R146); the payload length is the length of `payload`. -/
structure Response where
  status  : Status
  echo    : Byte
  payload : List Byte
  deriving DecidableEq, Repr

/-- A set of rights (R148). -/
structure Rights where
  route   : Bool
  lease   : Bool
  segment : Bool
  admin   : Bool
  deriving DecidableEq, Repr

/-- A row of the rights table (R148). -/
structure RightsRow where
  rights : Rights
  quota  : Nat
  deriving DecidableEq, Repr

/-! ### The whole part -/

/-- The state of the part, and the commands that wait for it. -/
structure State where
  ports        : Vector HostPort 4
  directory    : Vector Entry 48
  defaults     : Vector (Option Seg) 4
  segs         : Vector Arbiter 8
  engines      : Vector Engine 8
  /-- The 16 lease slots; none is FREE. -/
  leases       : Vector (Option Lease) 16
  tokenCounter : Byte
  notices      : Vector NoticeQueue 4
  buffers      : Vector FrameBuffer 4
  responses    : Vector Response 4
  rights       : Vector RightsRow 4
  /-- ADR1:ADR0 as sampled at device reset. -/
  adr          : BitVec 2
  /-- ADMSEL1:ADMSEL0 as sampled at device reset. -/
  admSel       : BitVec 2
  /-- MODEL'S OWN: the commands that wait, first in, first out. -/
  pending      : List Instr
  deriving DecidableEq, Repr

/-! ### Reset values -/

/-- The port context and last-refusal record after device reset (R1, R2, R20). -/
def HostPort.reset : HostPort :=
  { ctx := .idle, addrExpected := false, byteInHand := false, readClosed := false, abandon := .stopped,
    clockHeld := false, upstream := [], lastRefusal := none, refusalCount := 0 }

/-- An entry record after device reset (R22, R40). -/
def Entry.reset : Entry := { gen := 0#8, route := none }

/-- A segment record after device reset (R55). -/
def Arbiter.reset : Arbiter :=
  { state := .idle, queue := [], waits := Vector.replicate 4 .stopped, enable := true, shared := false,
    waitLimit := Config.resetWaitLimit, holdLimit := Config.resetHoldLimit, disablePending := false,
    lossCount := 0, recoveryCount := 0 }

/-- An engine record and recovery context after device reset (R73, R74, R104). -/
def Engine.reset : Engine :=
  { state := .quiet, served := none, target := none, busOwned := false, activity := .none, closing := false,
    hold := .stopped, foreignBusy := false, retry := 0, sharedMode := false, brokenPort := none, pulses := 0,
    recStep := .look, discarding := false, bus := [] }

/-- A notice queue after device reset (R133, R141). -/
def NoticeQueue.reset : NoticeQueue := { records := [], seq := 0#8, lost := 0, alert := false }

/-- A frame buffer after device reset (R142). -/
def FrameBuffer.reset : FrameBuffer := { bytes := [], overlong := false }

/-- A response record after device reset or port reset (R146). -/
def Response.reset : Response := { status := .noCommand, echo := 0#8, payload := [] }

/-- The row of port `p` in the rights table after a device reset that samples `admSel` (R148). -/
def RightsRow.reset (admSel : BitVec 2) (p : Port) : RightsRow :=
  { rights := if p.val = admSel.toNat then ⟨true, true, true, true⟩ else ⟨false, true, false, false⟩
    quota := Config.resetQuota }

/-- The part after a device reset that samples `adr` and `admSel` at its straps (R1, R22, R27, R55, R73, R112, R114,
R133, R142, R146, R148). -/
def State.resetWith (adr admSel : BitVec 2) : State :=
  { ports := Vector.replicate 4 HostPort.reset
    directory := Vector.replicate 48 Entry.reset
    defaults := Vector.replicate 4 none
    segs := Vector.replicate 8 Arbiter.reset
    engines := Vector.replicate 8 Engine.reset
    leases := Vector.replicate 16 none
    tokenCounter := 1#8
    notices := Vector.replicate 4 NoticeQueue.reset
    buffers := Vector.replicate 4 FrameBuffer.reset
    responses := Vector.replicate 4 Response.reset
    rights := Vector.ofFn (RightsRow.reset admSel)
    adr := adr
    admSel := admSel
    pending := [] }

/-- The part right after reset, on a board whose straps read ADR1:ADR0 = 0 and ADMSEL1:ADMSEL0 = 3.
DESIGN CHOICE, unsafe (log entry 1): the spec leaves the straps to the board; these are the values of all of chapter 10's
sequences. DEVICE_RESET takes any straps. -/
def State.reset : State := State.resetWith 0#2 3#2

/-! ### Outcomes -/

/-- The reasons the machine stops. The spec names none: no event of the part ends its operation. -/
inductive Fault where
  /-- Raised by an event of an engine or of a timer when the blocks disagree in a way R56, R57 and R75 exclude: a served
  port, a holder or a queued port whose context is not what those rules say. Safe: no run reaches it, and it stops where
  the spec says nothing (log entry 6). -/
  | blocksDisagree
  deriving DecidableEq, Repr

/-- The reasons a command is turned away. All but `notModelled` say that the event cannot occur in this state; they are
safe, since the model stops where no part goes on (log entry 5). -/
inductive Refusal where
  /-- Raised by `exec` alone, for an instruction that has no meaning yet. Safe. -/
  | notModelled (mnemonic : String)
  /-- Raised by every host event on a port whose clock the part holds low: no such event can occur (R12). Safe. -/
  | hostClockHeld
  /-- Raised by a data byte, an acknowledge or a not-acknowledge where the next byte of the port is an address byte (R1). Safe. -/
  | addressByteDue
  /-- Raised by an address byte where none is due: the byte is not the first after a start (R1, R3). Safe. -/
  | addressByteNotDue
  /-- Raised by a data byte in a read, or an answer to a supplied byte in a write: the direction excludes it. Safe. -/
  | wrongDirection
  /-- Raised by the expiry of a timer that is not running (R18, R59, R94). Safe. -/
  | timerNotRunning
  /-- Raised by a report of an engine that is not at the step the report ends (R73, R75, R105). Safe. -/
  | engineNotAtStep
  /-- Raised by an arbitration loss outside a message whose shared mode is set (R71, R98). Safe. -/
  | noContest
  /-- Raised by LEASE_EXPIRY on an entry with no HELD record (R123). Safe. -/
  | noLeaseHeld
  /-- Raised by a command row whose caller is not IDLE: a frame is taken only by the stop or repeated start that leaves
  its port IDLE (R7). Safe. -/
  | noFrameTaken
  /-- Raised by BAD_COMMAND with a byte that is a command code (R144, R159). Safe. -/
  | codeIsACommand
  deriving DecidableEq, Repr

/-- The outcome of one command. -/
abbrev Result := Host.Outcome State Fault Refusal

end Sys2Proof.Machine
end

