-- ==== Sys2Proof/Machine/Operands.lean ====
section
/-! DEFINITION. Argument bytes read as values (the arguments step of R144, with the encodings of R158), and the frames of
the 18 commands (R159). -/

namespace Sys2Proof.Machine

/-! ### Byte values -/

/-- The more significant byte of a 16-bit quantity (R158). -/
def hiByte (h : Half) : Byte := BitVec.ofNat 8 (h.toNat / 256)
/-- The less significant byte of a 16-bit quantity (R158). -/
def loByte (h : Half) : Byte := BitVec.ofNat 8 (h.toNat % 256)
/-- Two bytes of a frame, most significant first (R158). -/
def halfOf (hi lo : Byte) : Half := BitVec.ofNat 16 (hi.toNat * 256 + lo.toNat)
/-- A count or a duration as the two bytes of a response (R158). -/
def halfBytes (n : Nat) : List Byte := [hiByte (BitVec.ofNat 16 n), loByte (BitVec.ofNat 16 n)]

/-- A host port argument, 0 to 3 (R158). -/
def decodePort (b : Byte) : Option Port := if h : b.toNat < 4 then some ⟨b.toNat, h⟩ else none
/-- A segment argument, 0 to 7 (R158). -/
def decodeSeg (b : Byte) : Option Seg := if h : b.toNat < 8 then some ⟨b.toNat, h⟩ else none
/-- An entry index argument, 0 to 47 (R158). -/
def decodeEntry (b : Byte) : Option EntryIx := if h : b.toNat < 48 then some ⟨b.toNat, h⟩ else none
/-- A base argument, at most 0x7F (R28, R158). -/
def decodeAddr (b : Byte) : Option Addr := if b.toNat < 128 then some (BitVec.ofNat 7 b.toNat) else none
/-- A flag argument (R158). -/
def decodeFlag (b : Byte) : Option Bool := if b = 0#8 then some false else if b = 1#8 then some true else none
/-- A mode argument (R158). -/
def decodeMode (b : Byte) : Option Mode := if b = 0#8 then some .opened else if b = 1#8 then some .exclusive else none
/-- A span argument (R28, R158). -/
def decodeSpan (b : Byte) : Option Span :=
  if b = 1#8 then some .one else if b = 2#8 then some .two else if b = 4#8 then some .four else if b = 8#8 then some .eight
  else none
/-- A port mask argument; a bit above bit 3 names a port above 3 (R158). -/
def decodeMask (b : Byte) : Option PortMask := if b.toNat < 16 then some (BitVec.ofNat 4 b.toNat) else none
/-- A rights argument; bits 4 to 7 must be zero (R150, R158). -/
def decodeRights (b : Byte) : Option Rights :=
  if b.toNat < 16 then some ⟨b.getLsbD 0, b.getLsbD 1, b.getLsbD 2, b.getLsbD 3⟩ else none
/-- The segment argument of DFLT: 0 to 7, or 0xFF for none (R36, R158). -/
def decodeDefault (b : Byte) : Option (Option Seg) :=
  if b = 0xFF#8 then some none else (decodeSeg b).map some
/-- A max lease or duration argument, 1 to 65,535 ms (R28, R33, R117, R119). -/
def decodeDuration (h : Half) : Option Nat := if h.toNat = 0 then none else some h.toNat

/-- The number of addresses a span covers (R22). -/
def Span.size : Span → Nat
  | .one => 1 | .two => 2 | .four => 4 | .eight => 8

/-- A base that is a multiple of its span (R28). -/
def aligned (base : Addr) (span : Span) : Bool := base.toNat % span.size = 0

/-- The masks of an INSR or a MODR: the visibility mask is not empty and the write-protect mask is a part of it (R28, R33). -/
def masksOk (vis wp : PortMask) : Bool := vis ≠ 0#4 ∧ wp &&& ~~~vis = 0#4

/-- The arguments step of INSR (R28): the index and the route the arguments describe, or none for BAD_ARGUMENT. -/
def decodeInsr (index visibleBase span segment targetBase visMask wpMask mode : Byte) (maxLease : Half) :
    Option (EntryIx × Route) := do
  let e ← decodeEntry index
  let sp ← decodeSpan span
  let m ← decodeSeg segment
  let vb ← decodeAddr visibleBase
  let tb ← decodeAddr targetBase
  let vis ← decodeMask visMask
  let wp ← decodeMask wpMask
  let md ← decodeMode mode
  let ml ← decodeDuration maxLease
  if aligned vb sp && aligned tb sp && masksOk vis wp then
    some (e, { vbase := vb, span := sp, seg := m, tbase := tb, vis := vis, wp := wp, mode := md, maxLease := ml })
  else none

/-- The access fields a MODR gives (R33). -/
structure AccessFields where
  vis      : PortMask
  wp       : PortMask
  mode     : Mode
  maxLease : Nat
  deriving DecidableEq, Repr

/-- The arguments step of MODR (R33). -/
def decodeModr (index visMask wpMask mode : Byte) (maxLease : Half) : Option (EntryIx × AccessFields) := do
  let e ← decodeEntry index
  let vis ← decodeMask visMask
  let wp ← decodeMask wpMask
  let md ← decodeMode mode
  let ml ← decodeDuration maxLease
  if masksOk vis wp then some (e, { vis := vis, wp := wp, mode := md, maxLease := ml }) else none

/-- The arguments step of DFLT (R36). -/
def decodeDflt (port segment : Byte) : Option (Port × Option Seg) := do
  let q ← decodePort port
  let d ← decodeDefault segment
  some (q, d)

/-- The arguments step of LACQ (R117): entry, duration in ms, wait flag. -/
def decodeLacq (index : Byte) (duration : Half) (wait : Byte) : Option (EntryIx × Nat × Bool) := do
  let e ← decodeEntry index
  let d ← decodeDuration duration
  let w ← decodeFlag wait
  some (e, d, w)

/-- The arguments step of LREN (R119); every token byte lies in 0 to 255. -/
def decodeLren (index : Byte) (duration : Half) : Option (EntryIx × Nat) := do
  let e ← decodeEntry index
  let d ← decodeDuration duration
  some (e, d)

/-- The configuration an SCFG gives (R69); limits in ms. -/
structure SegConfig where
  enable    : Bool
  shared    : Bool
  waitLimit : Nat
  holdLimit : Nat
  deriving DecidableEq, Repr

/-- The arguments step of SCFG (R69). -/
def decodeScfg (segment enable shared waitLimit holdLimit : Byte) : Option (Seg × SegConfig) := do
  let m ← decodeSeg segment
  let en ← decodeFlag enable
  let sh ← decodeFlag shared
  if waitLimit ≠ 0#8 ∧ 5 ≤ holdLimit.toNat ∧ holdLimit.toNat ≤ 100 then
    some (m, { enable := en, shared := sh, waitLimit := waitLimit.toNat, holdLimit := holdLimit.toNat })
  else none

/-- The arguments step of RGHT (R150). -/
def decodeRght (port rights quota : Byte) : Option (Port × RightsRow) := do
  let q ← decodePort port
  let r ← decodeRights rights
  if quota.toNat ≤ 16 then some (q, { rights := r, quota := quota.toNat }) else none

/-! ### Frames (R159) -/

/-- The command codes (R159). -/
def opCode : Op → Byte
  | .insr => 0x10#8 | .delr => 0x11#8 | .modr => 0x12#8 | .rdrt => 0x13#8 | .dflt => 0x14#8
  | .lacq => 0x20#8 | .lren => 0x21#8 | .lrel => 0x22#8 | .lrev => 0x23#8 | .lqry => 0x24#8
  | .scfg => 0x30#8 | .ssta => 0x31#8 | .srcv => 0x32#8
  | .nfet => 0x40#8
  | .psta => 0x50#8 | .rght => 0x51#8 | .prst => 0x52#8 | .idnt => 0x53#8

/-- The commands, in the order of R159's table. -/
def allOps : List Op :=
  [.insr, .delr, .modr, .rdrt, .dflt, .lacq, .lren, .lrel, .lrev, .lqry, .scfg, .ssta, .srcv, .nfet, .psta, .rght, .prst,
    .idnt]

/-- The command a frame's first byte names, if any (R144 step 1, R159). -/
def opOfCode (b : Byte) : Option Op := allOps.find? (fun o => opCode o == b)

/-- The frame length of a command, counted with the code byte (R159). -/
def frameLength : Op → Nat
  | .insr => 11 | .delr => 2 | .modr => 7 | .rdrt => 2 | .dflt => 3
  | .lacq => 5 | .lren => 5 | .lrel => 3 | .lrev => 2 | .lqry => 2
  | .scfg => 6 | .ssta => 2 | .srcv => 2
  | .nfet => 1
  | .psta => 2 | .rght => 4 | .prst => 2 | .idnt => 1

/-- The command of `op` whose argument bytes are `args`; none when their number is not the command's (R144 step 2, R159). -/
def buildCommand (op : Op) (args : List Byte) : Option Command :=
  match op, args with
  | .insr, [a, b, c, d, e, f, g, h, i, j] => some (.insr a b c d e f g h (halfOf i j))
  | .delr, [a] => some (.delr a)
  | .modr, [a, b, c, d, e, f] => some (.modr a b c d (halfOf e f))
  | .rdrt, [a] => some (.rdrt a)
  | .dflt, [a, b] => some (.dflt a b)
  | .lacq, [a, b, c, d] => some (.lacq a (halfOf b c) d)
  | .lren, [a, b, c, d] => some (.lren a b (halfOf c d))
  | .lrel, [a, b] => some (.lrel a b)
  | .lrev, [a] => some (.lrev a)
  | .lqry, [a] => some (.lqry a)
  | .scfg, [a, b, c, d, e] => some (.scfg a b c d e)
  | .ssta, [a] => some (.ssta a)
  | .srcv, [a] => some (.srcv a)
  | .nfet, [] => some .nfet
  | .psta, [a] => some (.psta a)
  | .rght, [a, b, c] => some (.rght a b c)
  | .prst, [a] => some (.prst a)
  | .idnt, [] => some .idnt
  | _, _ => none

/-- The command of a `Command`. -/
def Command.op : Command → Op
  | .insr .. => .insr | .delr .. => .delr | .modr .. => .modr | .rdrt .. => .rdrt | .dflt .. => .dflt
  | .lacq .. => .lacq | .lren .. => .lren | .lrel .. => .lrel | .lrev .. => .lrev | .lqry .. => .lqry
  | .scfg .. => .scfg | .ssta .. => .ssta | .srcv .. => .srcv
  | .nfet => .nfet
  | .psta .. => .psta | .rght .. => .rght | .prst .. => .prst | .idnt => .idnt

/-- The argument bytes of a command, in frame order (R159). -/
def Command.args : Command → List Byte
  | .insr a b c d e f g h i => [a, b, c, d, e, f, g, h, hiByte i, loByte i]
  | .delr a => [a]
  | .modr a b c d e => [a, b, c, d, hiByte e, loByte e]
  | .rdrt a => [a]
  | .dflt a b => [a, b]
  | .lacq a b c => [a, hiByte b, loByte b, c]
  | .lren a b c => [a, b, hiByte c, loByte c]
  | .lrel a b => [a, b]
  | .lrev a => [a]
  | .lqry a => [a]
  | .scfg a b c d e => [a, b, c, d, e]
  | .ssta a => [a]
  | .srcv a => [a]
  | .nfet => []
  | .psta a => [a]
  | .rght a b c => [a, b, c]
  | .prst a => [a]
  | .idnt => []

/-- The bytes of the write transfer that carries a command (R159). -/
def Command.frame (c : Command) : List Byte := opCode c.op :: c.args

end Sys2Proof.Machine
end

