-- ==== Sys2Proof/Machine/Flags.lean ====
section
/-! DEFINITION. Codes and flag bytes of responses and notices: the encodings of R20, R134, R157, R158 and the flags byte of
R161. -/

namespace Sys2Proof.Machine

/-- The byte that stands for an absent value (R158). -/
def absent : Byte := 0xFF#8

/-- The status codes (R157). -/
def Status.code : Status → Byte
  | .ok => 0x00#8 | .pending => 0x01#8 | .accepted => 0x02#8
  | .badCommand => 0x10#8 | .badLength => 0x11#8 | .badArgument => 0x12#8 | .denied => 0x13#8
  | .noEntry => 0x20#8 | .conflict => 0x21#8 | .reservedAddress => 0x22#8
  | .tableFull => 0x23#8 | .quota => 0x24#8 | .heldElsewhere => 0x25#8 | .stale => 0x26#8 | .notHeld => 0x27#8
  | .already => 0x28#8 | .occupied => 0x29#8
  | .segBusy => 0x30#8 | .segDisabled => 0x31#8 | .lastAdmin => 0x32#8
  | .noCommand => 0xFE#8

/-- The refusal reason codes (R20). -/
def Reason.code : Reason → Byte
  | .leasedElsewhere => 1#8 | .leaseRequired => 2#8 | .writeProtected => 3#8 | .segmentDisabled => 4#8
  | .segmentFault => 5#8 | .waitExpired => 6#8 | .routeGone => 7#8 | .targetNack => 8#8 | .arbitrationLost => 9#8
  | .broken => 10#8 | .routedElsewhere => 11#8

/-- A count of at most 255 as one byte. -/
def countByte (n : Nat) : Byte := BitVec.ofNat 8 n
/-- A port in a response (R158). -/
def portByte (p : Port) : Byte := BitVec.ofNat 8 p.val
/-- A port or its absence (R158). -/
def portOrAbsent : Option Port → Byte
  | some p => portByte p | none => absent
/-- A segment in a response (R158). -/
def segByte (m : Seg) : Byte := BitVec.ofNat 8 m.val
/-- A segment or its absence (R158). -/
def segOrAbsent : Option Seg → Byte
  | some m => segByte m | none => absent
/-- An entry index in a response (R158). -/
def entryByte (e : EntryIx) : Byte := BitVec.ofNat 8 e.val
/-- An entry index or its absence (R158). -/
def entryOrAbsent : Option EntryIx → Byte
  | some e => entryByte e | none => absent
/-- An address in a response (R158). -/
def addrByte (a : Addr) : Byte := BitVec.ofNat 8 a.toNat
/-- A port mask in a response (R158). -/
def maskByte (m : PortMask) : Byte := BitVec.ofNat 8 m.toNat
/-- A flag in a response (R158). -/
def flagByte (b : Bool) : Byte := if b then 1#8 else 0#8
/-- A mode in a response (R158). -/
def modeByte : Mode → Byte
  | .opened => 0#8 | .exclusive => 1#8
/-- A direction in a response (R158). -/
def dirByte : Dir → Byte
  | .write => 0#8 | .read => 1#8
/-- A set of rights in a response: ROUTE in bit 0, LEASE in bit 1, SEGMENT in bit 2, ADMIN in bit 3 (R158). -/
def Rights.byte (r : Rights) : Byte :=
  BitVec.ofNat 8 (r.route.toNat + 2 * r.lease.toNat + 4 * r.segment.toNat + 8 * r.admin.toNat)

/-- A segment state in a response (R158). -/
def SegState.code : SegState → Byte
  | .disabled => 0#8 | .idle => 1#8 | .active _ => 2#8 | .recovering _ => 3#8 | .fault => 4#8

/-- A context state in a response (R158). -/
def Ctx.code : Ctx → Byte
  | .idle => 0#8 | .waiting _ => 1#8 | .addressing _ => 2#8 | .relayWrite _ => 3#8 | .relayRead _ => 4#8
  | .broken _ => 5#8 | .commandIn => 6#8 | .responseOut .. => 7#8

/-- A lease state in a response (R158). -/
def LeaseStatus.code : LeaseStatus → Byte
  | .pending _ => 1#8 | .held .. => 2#8

/-- The kind codes of notices (R134). -/
def NoticeKind.code : NoticeKind → Byte
  | .leaseGranted => 1#8 | .leaseExpired => 2#8 | .leaseRevoked _ => 3#8 | .messageBroken _ => 4#8
  | .messageAbandoned => 5#8 | .segmentRecovered => 6#8 | .segmentFault => 7#8 | .portReset _ => 8#8

/-- The detail codes of a LEASE_REVOKED (R134). -/
def RevokeCause.code : RevokeCause → Byte
  | .byAdmin => 1#8 | .routeRemoved => 2#8 | .visibilityLost => 3#8 | .cancelled => 4#8

/-- The detail codes of a MESSAGE_BROKEN (R134). -/
def BreakCause.code : BreakCause → Byte
  | .arbitrationLost => 1#8 | .holdExpired => 2#8 | .recoveryForced => 3#8

/-- The detail of a notice, read by its kind; 0 where the kind has none (R134). -/
def NoticeKind.detail : NoticeKind → Byte
  | .leaseRevoked c => c.code
  | .messageBroken c => c.code
  | .portReset p => portByte p
  | _ => 0#8

/-- The six bytes of a notice record (R162). -/
def Notice.bytes (n : Notice) : List Byte :=
  [n.kind.code, n.seq, entryOrAbsent n.entry, segOrAbsent n.seg, n.token, n.kind.detail]

/-- The six bytes an NFET on an empty queue returns in the place of a record (R162). -/
def noNoticeBytes : List Byte := [0#8, 0#8, absent, absent, 0#8, 0#8]

/-- The flags byte of SSTA: enable, shared, disable-pending, foreign-busy in bits 0 to 3 (R161). -/
def segFlags (a : Arbiter) (foreignBusy : Bool) : Byte :=
  BitVec.ofNat 8 (a.enable.toNat + 2 * a.shared.toNat + 4 * a.disablePending.toNat + 8 * foreignBusy.toNat)

/-- The bytes of a response in the order they are supplied (R8, R157). -/
def Response.bytes (r : Response) : List Byte :=
  r.status.code :: r.echo :: countByte r.payload.length :: r.payload

/-- The byte supplied at a read position: 0xFF after the payload (R8). -/
def Response.byteAt (r : Response) (pos : Nat) : Byte := r.bytes.getD pos 0xFF#8

end Sys2Proof.Machine
end

