-- ==== Sys2Proof/Machine/Ops.lean ====
section
/-! DEFINITION. The named operations every meaning is made of: one place of one table updated, timers, what a port is
answered, refusals (R20), notices stored (R135) and responses written (R146). -/

namespace Sys2Proof.Machine

/-! ### Tables -/

/-- The table `v` with the record at `i` changed by `f`. -/
def tabUpd {α : Type} {n : Nat} (v : Vector α n) (i : Fin n) (f : α → α) : Vector α n := v.set i (f v[i])

/-- The table `v` with every record changed by `f`. -/
def tabMap {α β : Type} {n : Nat} (v : Vector α n) (f : α → β) : Vector β n := Vector.ofFn (fun i => f v[i])

/-- Port `p`'s Host Port Unit changed by `f`. -/
def State.onPort (s : State) (p : Port) (f : HostPort → HostPort) : State := { s with ports := tabUpd s.ports p f }
/-- Entry record `e` changed by `f`. -/
def State.onEntry (s : State) (e : EntryIx) (f : Entry → Entry) : State := { s with directory := tabUpd s.directory e f }
/-- Segment `m`'s arbiter changed by `f`. -/
def State.onSeg (s : State) (m : Seg) (f : Arbiter → Arbiter) : State := { s with segs := tabUpd s.segs m f }
/-- Segment `m`'s engine changed by `f`. -/
def State.onEngine (s : State) (m : Seg) (f : Engine → Engine) : State := { s with engines := tabUpd s.engines m f }
/-- Port `p`'s Notice Queue changed by `f`. -/
def State.onNotices (s : State) (p : Port) (f : NoticeQueue → NoticeQueue) : State :=
  { s with notices := tabUpd s.notices p f }
/-- Port `p`'s frame buffer changed by `f`. -/
def State.onBuffer (s : State) (p : Port) (f : FrameBuffer → FrameBuffer) : State :=
  { s with buffers := tabUpd s.buffers p f }
/-- Port `p`'s response record changed by `f`. -/
def State.onResponse (s : State) (p : Port) (f : Response → Response) : State :=
  { s with responses := tabUpd s.responses p f }
/-- Port `p`'s row of the rights table changed by `f`. -/
def State.onRights (s : State) (p : Port) (f : RightsRow → RightsRow) : State := { s with rights := tabUpd s.rights p f }

/-! ### Timers -/

/-- A timer started from zero with a limit in ms. -/
def Timer.start (ms : Nat) : Timer := .running (ms * Config.ticksPerMs) 0

/-- The timer is running. -/
def Timer.isRunning : Timer → Bool
  | .stopped => false
  | .running .. => true

/-- The timer one tick later. -/
def Timer.tick : Timer → Timer
  | .stopped => .stopped
  | .running l e => .running l (e + 1)

/-- The timer reaches its limit within the coming tick. -/
def Timer.due : Timer → Bool
  | .stopped => false
  | .running l e => l ≤ e + 1

/-- A line is being timed: the hold timer is running (R73). -/
def HoldTimer.isRunning (t : HoldTimer) : Bool := t.clock.isRunning || t.data.isRunning

/-- The hold timer one tick later. -/
def HoldTimer.tick (t : HoldTimer) : HoldTimer := { clock := t.clock.tick, data := t.data.tick }

/-- A line that is being timed reaches its limit within the coming tick. -/
def HoldTimer.due (t : HoldTimer) : Bool := t.clock.due || t.data.due

/-- The timing of line `l`. -/
def HoldTimer.line (t : HoldTimer) : Line → Timer
  | .clock => t.clock
  | .data => t.data

/-- The hold timer with the timing of line `l` replaced; the other line's goes on. -/
def HoldTimer.onLine (t : HoldTimer) (l : Line) (x : Timer) : HoldTimer :=
  match l with
  | .clock => { t with clock := x }
  | .data => { t with data := x }

/-- The abandon timer started from zero (R18, R19). -/
def abandonStart : Timer := Timer.start Config.abandonLimit

/-! ### The port context -/

/-- The current transfer, in the states that hold one (R1). -/
def Ctx.transfer? : Ctx → Option Transfer
  | .idle => none
  | .waiting t => some t
  | .addressing t => some t
  | .relayWrite t => some t
  | .relayRead t => some t
  | .broken t => some t
  | .commandIn => none
  | .responseOut .. => none

/-- The port is in RELAY_WRITE or RELAY_READ. -/
def Ctx.isRelay : Ctx → Bool
  | .relayWrite _ => true
  | .relayRead _ => true
  | _ => false

/-- The port is in ADDRESSING. -/
def Ctx.isAddressing : Ctx → Bool
  | .addressing _ => true
  | _ => false

/-- The port IDLE with address expected `exp`, its lines released, its timer stopped, its current transfer absent; with
`exp` false it is passive (R3). -/
def HostPort.toIdle (exp : Bool) (h : HostPort) : HostPort :=
  { h with ctx := .idle, addrExpected := exp, byteInHand := false, readClosed := false, abandon := .stopped,
           clockHeld := false, upstream := [] }

/-- The port waits again for its host, which was given `acts`: the abandon timer starts from zero (R18). -/
def HostPort.await (acts : List UpAct) (h : HostPort) : HostPort := { h with abandon := abandonStart, upstream := acts }

/-- A relayed byte is in progress: the clock is held for it and the abandon timer does not run (R12, R13, R14). -/
def HostPort.hold (h : HostPort) : HostPort :=
  { h with byteInHand := true, clockHeld := true, abandon := .stopped, upstream := [] }

/-- The relayed byte is answered upstream with `acts`: the clock is released and the abandon timer starts (R13, R14). -/
def HostPort.answer (acts : List UpAct) (h : HostPort) : HostPort :=
  { h with byteInHand := false, clockHeld := false, abandon := abandonStart, upstream := acts }

/-- The last-refusal record is overwritten and the refusal count rises, up to 255 (R20 steps 2 and 3). -/
def HostPort.record (r : Reason) (t : Transfer) (h : HostPort) : HostPort :=
  { h with lastRefusal := some { reason := r, vaddr := t.vaddr, dir := t.dir, entry := t.snap.entry.map Prod.fst },
           refusalCount := min 255 (h.refusalCount + 1) }

/-- A refusal presented at the address byte: the address is not acknowledged, the clock is released, the refusal is
recorded, and the port is IDLE and passive (R9, R10, R11, R20). -/
def State.refuse (s : State) (p : Port) (r : Reason) (t : Transfer) : State :=
  s.onPort p (fun h => (h.toIdle false).record r t)

/-! ### Notices (R135) -/

/-- A notice reaches a queue: it is stored at the tail with the next sequence number, asserting the alert line if the queue
was empty, or it is lost and counted when the queue is full (R135). -/
def NoticeQueue.store (k : NoticeKind) (e : Option EntryIx) (m : Option Seg) (token : Byte) (q : NoticeQueue) :
    NoticeQueue :=
  if q.records.length < Config.noticeCapacity then
    { q with records := q.records ++ [{ kind := k, seq := q.seq + 1#8, entry := e, seg := m, token := token }]
             seq := q.seq + 1#8
             alert := if q.records.isEmpty then true else q.alert }
  else { q with lost := min 255 (q.lost + 1) }

/-- A notice is posted into the Notice Queue of port `p` (R135). -/
def State.post (s : State) (p : Port) (k : NoticeKind) (e : Option EntryIx) (m : Option Seg) (token : Byte) : State :=
  s.onNotices p (NoticeQueue.store k e m token)

/-! ### Responses (R146) -/

/-- The response record of port `p` is overwritten (R144, R146). -/
def State.respond (s : State) (p : Port) (st : Status) (echo : Byte) (payload : List Byte) : State :=
  s.onResponse p (fun _ => { status := st, echo := echo, payload := payload })

/-- The own address (spec 00, Pins and straps). -/
def State.ownAddr (s : State) : Addr := Config.ownAddressBase + s.adr.setWidth 7

/-- Every port, in ascending order. -/
def allPorts : List Port := List.finRange 4
/-- Every directory index, in ascending order. -/
def allEntries : List EntryIx := List.finRange 48
/-- Every lease slot, in ascending order. -/
def allSlots : List Slot := List.finRange 16

end Sys2Proof.Machine
end

