-- ==== Sys2Proof/Machine/Directory.lean ====
section
/-! DEFINITION. The Route Directory: spans and translation (R24), resolution (R25), and the validation of edits (R29, R30,
R33). -/

namespace Sys2Proof.Machine

/-- `a` lies in the range of `span` addresses from `base` (R22, R24). -/
def inRange (base : Addr) (span : Span) (a : Addr) : Bool := base.toNat ≤ a.toNat && a.toNat < base.toNat + span.size

/-- Two ranges intersect (R30). -/
def rangesMeet (b₁ : Addr) (s₁ : Span) (b₂ : Addr) (s₂ : Span) : Bool :=
  b₁.toNat < b₂.toNat + s₂.size && b₂.toNat < b₁.toNat + s₁.size

/-- The mask contains port `p` (R158). -/
def hasPort (m : PortMask) (p : Port) : Bool := m.getLsbD p.val

/-- The target address of a visible address in the route's range (R24). -/
def Route.translate (r : Route) (a : Addr) : Addr := r.tbase + (a - r.vbase)

/-- The route is seen on port `p` at address `a` (R25). -/
def Route.sees (r : Route) (p : Port) (a : Addr) : Bool := hasPort r.vis p && inRange r.vbase r.span a

/-- The reserved addresses 0x00 to 0x07 and 0x78 to 0x7F (spec 00, Terms; R4). -/
def reservedAddr (a : Addr) : Bool := a.toNat < 0x08 || 0x78 ≤ a.toNat

/-- The route of entry `e`, none when the record is FREE. -/
def State.route (s : State) (e : EntryIx) : Option Route := s.directory[e].route

/-- The INSTALLED entry that port `p` sees at address `a` (R25; at most one by R26). -/
def State.entryAt (s : State) (p : Port) (a : Addr) : Option EntryIx :=
  allEntries.find? (fun e => match s.route e with
    | some r => r.sees p a
    | none => false)

/-- The Route Directory resolves the pair (`p`, `a`): an entry, the port's default segment, or nothing (R25). -/
def State.resolve (s : State) (p : Port) (a : Addr) : Option Snapshot :=
  match s.entryAt p a with
  | some e =>
    match s.route e with
    | some r => some { entry := some (e, s.directory[e].gen), seg := r.seg, target := r.translate a }
    | none => none
  | none =>
    match s.defaults[p] with
    | some m => some { entry := none, seg := m, target := a }
    | none => none

/-- The range of a base and span lies within 0x08 to 0x77 (R29). -/
def rangeFree (base : Addr) (span : Span) : Bool := 0x08 ≤ base.toNat && base.toNat + span.size ≤ 0x78

/-- The reserved-address checks of an INSR, steps 2 and 3 of R29, pass. -/
def State.addressesFree (s : State) (r : Route) : Bool :=
  rangeFree r.vbase r.span && !inRange r.vbase r.span s.ownAddr && rangeFree r.tbase r.span

/-- The visible-conflict condition of R30 and R33 between two routes: a common port and intersecting visible ranges. -/
def visibleConflict (r o : Route) : Bool := (r.vis &&& o.vis != 0#4) && rangesMeet r.vbase r.span o.vbase o.span

/-- The target-conflict condition of R30: one segment and intersecting target ranges. -/
def targetConflict (r o : Route) : Bool := r.seg = o.seg && rangesMeet r.tbase r.span o.tbase o.span

/-- The lowest-numbered INSTALLED entry other than `e` in conflict with a route for `e` (R30). DEDUCED, unsafe (log entry
8): where one entry meets the visible condition and a lower one the target condition, the lower one is named. -/
def State.insrConflict (s : State) (e : EntryIx) (r : Route) : Option EntryIx :=
  allEntries.find? (fun i => i ≠ e && match s.route i with
    | some o => visibleConflict r o || targetConflict r o
    | none => false)

/-- The lowest-numbered other INSTALLED entry in visible conflict with the route `r` of entry `e` (R33). -/
def State.modrConflict (s : State) (e : EntryIx) (r : Route) : Option EntryIx :=
  allEntries.find? (fun i => i ≠ e && match s.route i with
    | some o => visibleConflict r o
    | none => false)

/-- The target address lies in the target range of an entry installed on segment `m` (R47). -/
def State.routedElsewhere (s : State) (m : Seg) (a : Addr) : Bool :=
  allEntries.any (fun e => match s.route e with
    | some r => decide (r.seg = m) && inRange r.tbase r.span a
    | none => false)

end Sys2Proof.Machine
end

