-- ==== Sys2Proof/Machine/LeaseTable.lean ====
section
/-! DEFINITION. The Lease Table's records and what is done to them: counts (R116), tokens (R114), freeing, the pending list
and promotion (R113, R122), revocation (R125 to R127). -/

namespace Sys2Proof.Machine

/-! ### Reading -/

/-- The slot and record of the lowest slot whose record satisfies `f`. -/
def State.findLease (s : State) (f : Lease → Bool) : Option (Slot × Lease) :=
  allSlots.findSome? (fun i => match s.leases[i] with
    | some l => if f l then some (i, l) else none
    | none => none)

/-- The record is HELD. -/
def Lease.isHeld (l : Lease) : Bool :=
  match l.status with
  | .held .. => true
  | .pending _ => false

/-- The record's order; 0 when it is HELD, whose order is absent (R112, R160). -/
def Lease.order (l : Lease) : Nat :=
  match l.status with
  | .pending k => k
  | .held .. => 0

/-- The record's token; 0 when it is PENDING (R117, R125). -/
def Lease.token (l : Lease) : Byte :=
  match l.status with
  | .held t _ => t
  | .pending _ => 0#8

/-- The record's remaining time in ticks; 0 when it is PENDING. -/
def Lease.remaining (l : Lease) : Nat :=
  match l.status with
  | .held _ n => n
  | .pending _ => 0

/-- A remaining time in whole ms, rounded up (R115). -/
def roundUpMs (ticks : Nat) : Nat := (ticks + (Config.ticksPerMs - 1)) / Config.ticksPerMs

/-- The HELD record on entry `e` (R113: at most one). -/
def State.heldOn (s : State) (e : EntryIx) : Option (Slot × Lease) :=
  s.findLease (fun l => l.entry = e && l.isHeld)

/-- The record of port `p` on entry `e` (R113: at most one). -/
def State.recordOf (s : State) (p : Port) (e : EntryIx) : Option (Slot × Lease) :=
  s.findLease (fun l => l.entry = e && decide (l.port = p))

/-- The PENDING record of order `k` on entry `e`. -/
def State.pendingAt (s : State) (e : EntryIx) (k : Nat) : Option (Slot × Lease) :=
  s.findLease (fun l => l.entry = e && !l.isHeld && l.order == k)

/-- The ports of the PENDING records on entry `e`, oldest first (R113, R130); the list never holds more than 3. -/
def State.pendingPorts (s : State) (e : EntryIx) : List Port :=
  [1, 2, 3].filterMap (fun k => (s.pendingAt e k).map (fun x => x.2.port))

/-- The number of records of port `p` that are not FREE (R116). -/
def State.leaseCount (s : State) (p : Port) : Nat :=
  allSlots.countP (fun i => match s.leases[i] with
    | some l => decide (l.port = p)
    | none => false)

/-- The lowest-numbered FREE slot (R112). -/
def State.freeSlot? (s : State) : Option Slot := allSlots.find? (fun i => s.leases[i].isNone)

/-- The max lease of entry `e` in ms, as the directory holds it now; `d` when the record is FREE, which no lease names (R113). -/
def State.maxLeaseOr (s : State) (e : EntryIx) (d : Nat) : Nat :=
  match s.route e with
  | some r => r.maxLease
  | none => d

/-- The segment of entry `e`, absent when the record is FREE. -/
def State.segOf (s : State) (e : EntryIx) : Option Seg := (s.route e).map Route.seg

/-! ### Tokens (R114) -/

/-- The tokens of the HELD records. -/
def State.heldTokens (s : State) : List Byte :=
  allSlots.filterMap (fun i => match s.leases[i] with
    | some l => if l.isHeld then some l.token else none
    | none => none)

/-- The token counter advanced by one, from 255 to 1 (R114). -/
def bumpToken (c : Byte) : Byte := if c = 255#8 then 1#8 else c + 1#8

/-- The first value from `c` on that is no token of `used`, in at most `fuel` advances (R114). -/
def nextToken (used : List Byte) : Nat → Byte → Byte
  | 0, c => c
  | fuel + 1, c => if c ∈ used then nextToken used fuel (bumpToken c) else c

/-- The token an issue gives (R114). At most 15 other HELD records exist, so 16 advances always find a free value. -/
def State.tokenToIssue (s : State) : Byte := nextToken s.heldTokens 16 s.tokenCounter

/-- The token counter after an issue of token `t` (R114). -/
def State.afterIssue (s : State) (t : Byte) : State := { s with tokenCounter := bumpToken t }

/-! ### Changing records -/

/-- The slot `i` holds `l`. -/
def State.setLease (s : State) (i : Slot) (l : Option Lease) : State := { s with leases := tabUpd s.leases i (fun _ => l) }

/-- A PENDING record of `e` behind order `k` moves one place forward (R113). -/
def Lease.moveUp (e : EntryIx) (k : Nat) (l : Lease) : Lease :=
  match l.status with
  | .pending o => if l.entry = e ∧ k < o then { l with status := .pending (o - 1) } else l
  | .held .. => l

/-- The records behind order `k` of entry `e` move one place forward (R113). -/
def State.closeGap (s : State) (e : EntryIx) (k : Nat) : State :=
  { s with leases := tabMap s.leases (Option.map (Lease.moveUp e k)) }

/-- A record is freed; when it was PENDING, the records behind it move one place forward (R113, R121). -/
def State.freeRecord (s : State) (x : Slot × Lease) : State :=
  let s₁ := s.setLease x.1 none
  if x.2.isHeld then s₁ else s₁.closeGap x.2.entry x.2.order

/-- A duration in ms clipped to the max lease that entry `e` has now (R118, R119, R122). -/
def State.clip (s : State) (e : EntryIx) (d : Nat) : Nat := min d (s.maxLeaseOr e d)

/-- Promotion (R122): the record of order 1 on entry `e`, if any, becomes HELD with a new token and its requested duration
clipped to the max lease as it stands; the records behind it move forward; LEASE_GRANTED is posted to its port. -/
def State.promote (s : State) (e : EntryIx) : State :=
  match s.pendingAt e 1 with
  | none => s
  | some (i, l) =>
    let tok := s.tokenToIssue
    let s₁ := (s.setLease i (some { l with status := .held tok (s.clip e l.requested * Config.ticksPerMs) })).afterIssue tok
    (s₁.closeGap e 1).post l.port .leaseGranted (some e) (s.segOf e) tok

/-- The port a promotion on entry `e` would make holder. -/
def State.promotee (s : State) (e : EntryIx) : Option Port := (s.pendingAt e 1).map (fun x => x.2.port)

/-- A HELD record is freed and the oldest PENDING record of its entry is promoted in the same event (R120, R123, R129). -/
def State.freeAndPromote (s : State) (x : Slot × Lease) : State := (s.freeRecord x).promote x.2.entry

/-- A record is revoked or cancelled: it is freed and LEASE_REVOKED goes to its port with the cause and its token, 0 for a
PENDING record; `m` is the entry's segment (R125 to R127, R131). -/
def State.revoke (s : State) (x : Slot × Lease) (cause : RevokeCause) (m : Option Seg) : State :=
  (s.freeRecord x).post x.2.port (.leaseRevoked cause) (some x.2.entry) m x.2.token

/-- The HELD record on `e`, if any, is revoked with `cause` (R125, R126). -/
def State.revokeHeld (s : State) (e : EntryIx) (cause : RevokeCause) (m : Option Seg) : State :=
  match s.heldOn e with
  | some x => s.revoke x cause m
  | none => s

/-- The pending list of `e` is cancelled from order 1, `n` records at most (R125, R126). Each freed record moves the next
one to order 1. -/
def State.cancelPending (e : EntryIx) (cause : RevokeCause) (m : Option Seg) : Nat → State → State
  | 0, s => s
  | n + 1, s =>
    match s.pendingAt e 1 with
    | some x => State.cancelPending e cause m n (s.revoke x cause m)
    | none => s

/-- Every record naming `e` is freed, the HELD record first, with the two causes given (R125, R126). -/
def State.clearEntry (s : State) (e : EntryIx) (heldCause pendCause : RevokeCause) (m : Option Seg) : State :=
  State.cancelPending e pendCause m Config.grantCapacity (s.revokeHeld e heldCause m)

end Sys2Proof.Machine
end

