-- ==== Sys2Proof/Machine/Admission.lean ====
section
/-! DEFINITION. The Admission Check (spec 03): at arrival (R44 to R49) and at grant (R50, R51). It reads and changes nothing. -/

namespace Sys2Proof.Machine

/-- The lease and mode steps together (R45). -/
def State.leaseReason (s : State) (p : Port) (e : EntryIx) (mode : Mode) : Option Reason :=
  match s.heldOn e with
  | some (_, l) => if l.port = p then none else some .leasedElsewhere
  | none =>
    match mode with
    | .opened => none
    | .exclusive => some .leaseRequired

/-- The write-protect step: a write on a port of the write-protect mask (R44 step 1, R46). -/
def Route.protects (r : Route) (p : Port) (d : Dir) : Bool := d = .write && hasPort r.wp p

/-- The steps of R44 and R50 that the entry decides: write protection, lease, mode. -/
def State.entryReason (s : State) (p : Port) (d : Dir) (e : EntryIx) (r : Route) : Option Reason :=
  if r.protects p d then some .writeProtected else s.leaseReason p e r.mode

/-- The segment steps of R44 (R48, R49). -/
def SegState.reason : SegState → Option Reason
  | .disabled => some .segmentDisabled
  | .fault => some .segmentFault
  | .idle => none
  | .active _ => none
  | .recovering _ => none

/-- The check at arrival for a transfer of port `p`, direction `d`, snapshot `n`: none accepts (R44, R47, R48). -/
def State.checkAtArrival (s : State) (p : Port) (d : Dir) (n : Snapshot) : Option Reason :=
  match n.entry with
  | some (e, _) =>
    match (s.route e).bind (s.entryReason p d e) with
    | some r => some r
    | none => s.segs[n.seg].state.reason
  | none =>
    if s.routedElsewhere n.seg n.target then some .routedElsewhere else s.segs[n.seg].state.reason

/-- The check at grant: none accepts (R50, R51). -/
def State.checkAtGrant (s : State) (p : Port) (d : Dir) (n : Snapshot) : Option Reason :=
  match n.entry with
  | some (e, g) =>
    match s.route e with
    | none => some .routeGone
    | some r =>
      if s.directory[e].gen ≠ g then some .routeGone
      else if !hasPort r.vis p then some .routeGone
      else s.entryReason p d e r
  | none => if s.routedElsewhere n.seg n.target then some .routedElsewhere else none

end Sys2Proof.Machine
end

