-- ==== Sys2Proof/Machine/Engines.lean ====
section
/-! DEFINITION. What a Segment Engine does on its own record (spec 05): taking an order (R76), ending a service (R82, R86,
R89 to R93), entering STARTING (R97), driving a start (R77). -/

namespace Sys2Proof.Machine

/-- The engine drives nothing, serves nobody and owns no bus; the foreign-busy flag, the retry count, the shared mode and
the recovery context keep their values (R91, R92, R99, R100, R106). -/
def Engine.toQuiet (e : Engine) : Engine :=
  { e with state := .quiet, served := none, target := none, busOwned := false, activity := .none, closing := false,
           hold := .stopped, discarding := false }

/-- The engine is closing a released transfer, with its byte or the discarded byte of R90 still clocking. -/
def Engine.isClosing (e : Engine) : Bool := e.closing || e.discarding

/-- The engine enters STARTING for a start, with bus owned no; it samples the segment's shared flag (R97). -/
def Engine.enterStarting (shared : Bool) (e : Engine) : Engine :=
  { e with state := .starting, busOwned := false, activity := .none, sharedMode := shared }

/-- The arbiter orders an address phase for port `p`, whose snapshot gives `target` (R76, R93). An engine in STARTING has
just had its served port withdrawn and continues the same line check. -/
def Engine.order (p : Port) (target : Option (Addr × Dir)) (shared : Bool) (e : Engine) : Engine :=
  let e₁ := { e with served := some p, retry := 0 }
  if e.isClosing then e₁
  else
    match e.state with
    | .quiet => { e₁ with target := target }.enterStarting shared
    | _ => { e₁ with target := target }

/-- The engine drives the stop that ends its segment message (R91). -/
def Engine.driveStop (acts : List BusAct) (e : Engine) : Engine :=
  { e with state := .stopping, activity := .none, closing := false, discarding := false, bus := acts ++ [.stop] }

/-- The engine's service of its port ends: at a stop, an abandon expiry, an end after a repeated start, a port reset, a wait
expiry, a refused address (R80, R82, R86, R89, R90, R93). A byte that is clocking is finished as a closing (R90). In
STARTING with bus owned no nothing is driven; `Engine.settle` ends that line check unless a new holder takes it. -/
def Engine.endService (e : Engine) : Engine :=
  let e₁ := { e with served := none }
  if e.isClosing then e₁
  else
    match e.state, e.activity with
    | .starting, _ => if e.busOwned then e₁.driveStop [] else e₁
    | .address, _ => { e₁ with closing := true }
    | .writing, .clocking => { e₁ with closing := true }
    | .writing, _ => e₁.driveStop []
    | .reading, .clocking => { e₁ with closing := true }
    | .reading, .slotOpen => e₁.driveStop [.notAcknowledge]
    | .reading, .none => e₁.driveStop []
    | .quiet, _ => e₁
    | .stopping, _ => e₁
    | .recovering, _ => e₁

/-- The target does not acknowledge its address: the byte is finished and the engine drives the stop (R80). -/
def Engine.nackStop (e : Engine) : Engine := { e with served := none, hold := .stopped }.driveStop []

/-- A line check left without a served port is given up: the engine goes QUIET (R93). -/
def Engine.settle (e : Engine) : Engine :=
  match e.state, e.served with
  | .starting, none => e.toQuiet
  | _, _ => e

/-- The line check passes: the engine stops its hold timer, drives its start or repeated start and the address byte, and
counts the attempt in shared mode (R77, R78, R99). -/
def Engine.driveStart (a : Addr) (d : Dir) (e : Engine) : Engine :=
  { e with state := .address, busOwned := true, activity := .clocking, hold := .stopped,
           retry := if e.sharedMode then e.retry + 1 else e.retry
           bus := [if e.busOwned then .repeatedStart else .start, .address a d] }

/-- What an arbitration loss does to the engine whatever follows it (R98). -/
def Engine.lose (e : Engine) : Engine :=
  { e with busOwned := false, foreignBusy := true, activity := .none, closing := false, hold := .stopped, bus := [] }

/-- The engine's part of a recovery's beginning; `broken` is the port broken by the break that led to it (R104). It then
looks at its lines (R105 step 1). -/
def Engine.beginRecovery (broken : Option Port) (e : Engine) : Engine :=
  { e with state := .recovering, served := none, target := none, activity := .none, closing := false, discarding := false,
           hold := .stopped, busOwned := true, brokenPort := broken, pulses := 0, recStep := .look, bus := [] }

/-- The engine's part of a recovery's end, successful or not (R106, R107). -/
def Engine.endRecovery (acts : List BusAct) (e : Engine) : Engine :=
  { e.toQuiet with foreignBusy := false, bus := acts }

/-- The engine has released line `l` and needs it high (R94, R105). In STARTING that is either line, while a byte is clocking
the clock. A stop, of a message or of a recovery, needs the clock high first and the data line once the clock is high. Of a
recovery, the look and a pulse need the clock; that the look tests the data line is `Engine.testsData`. -/
def Engine.watches (e : Engine) (l : Line) : Bool :=
  match e.state, l with
  | .quiet, _ => false
  | .starting, _ => true
  | .stopping, .clock => true
  | .stopping, .data => !e.hold.clock.isRunning
  | .recovering, .clock => true
  | .recovering, .data => e.recStep = .stop && !e.hold.clock.isRunning
  | _, .clock => e.activity = .clocking
  | _, .data => false

/-- The engine is at step 2 of R105 after its look: the clock is high, and the data line decides between a pulse and the stop. -/
def Engine.testsData (e : Engine) : Bool :=
  e.state = .recovering && e.recStep = .look && !e.hold.clock.isRunning

/-- The engine finds line `l` low where it needs it high: the line is timed from zero with the hold limit `limit` in force,
unless it is being timed already (R94). A clock found low after a pulse shows that the pulse was driven and released, which
counts it (R105 step 3). -/
def Engine.timeLine (limit : Nat) (l : Line) (e : Engine) : Engine :=
  if (e.hold.line l).isRunning then e
  else
    let e₁ := { e with hold := e.hold.onLine l (Timer.start limit) }
    match e.state, e.recStep with
    | .recovering, .pulse => { e₁ with recStep := .pulsing, pulses := e.pulses + 1, bus := [.pulse] }
    | _, _ => e₁

end Sys2Proof.Machine
end

