-- ==== Sys2Proof/Machine/Arbitration.lean ====
section
/-! DEFINITION. What the Segment Arbiters do (spec 04): arrival (R58), release (R62) and hand-over (R63), the refusal of
queued ports, and the beginning and the end of a recovery (R64 to R66, R104 to R108) with the break before it (R102). -/

namespace Sys2Proof.Machine

/-! ### Wait timers and the queue -/

/-- The wait timer of port `p` at segment `m` starts from zero with the segment's wait limit as it stands (R59). -/
def State.startWait (s : State) (m : Seg) (p : Port) : State :=
  s.onSeg m (fun a => { a with waits := tabUpd a.waits p (fun _ => Timer.start a.waitLimit) })

/-- The wait timer of port `p` at segment `m` stops (R59). -/
def State.stopWait (s : State) (m : Seg) (p : Port) : State :=
  s.onSeg m (fun a => { a with waits := tabUpd a.waits p (fun _ => .stopped) })

/-- Port `p` leaves the grant queue of `m`; the ports behind it keep their order (R57). -/
def State.leaveQueue (s : State) (m : Seg) (p : Port) : State := s.onSeg m (fun a => { a with queue := a.queue.erase p })

/-- The segment state of `m` becomes `st`. -/
def State.setSegState (s : State) (m : Seg) (st : SegState) : State := s.onSeg m (fun a => { a with state := st })

/-- The target address and direction of a port's current transfer, as its snapshot gives them (R76). -/
def State.targetOf (s : State) (p : Port) : Option (Addr × Dir) :=
  s.ports[p].ctx.transfer?.map (fun t => (t.snap.target, t.dir))

/-- The arbiter orders the engine of `m` to begin an address phase for port `p` (R76). -/
def State.orderPhase (s : State) (m : Seg) (p : Port) : State :=
  s.onEngine m (Engine.order p (s.targetOf p) s.segs[m].shared)

/-- A port of the queue or the resume port is refused: its wait timer stops and it is answered (R10, R11, R63, R66). -/
def State.refuseWaiter (s : State) (m : Seg) (r : Reason) (p : Port) : State :=
  match s.ports[p].ctx.transfer? with
  | some t => (s.stopWait m p).refuse p r t
  | none => s.stopWait m p

/-- Every port of `ps` is refused with `r`, from the head (R63, R66). -/
def State.refuseAll (m : Seg) (r : Reason) (ps : List Port) (s : State) : State :=
  ps.foldl (fun s p => s.refuseWaiter m r p) s

/-! ### Arrival (R58) -/

/-- The port enters `ctx` for an admitted transfer and holds its clock until the address byte is answered (R9, R12). -/
def HostPort.enter (ctx : Ctx) (h : HostPort) : HostPort :=
  { h with ctx := ctx, addrExpected := false, byteInHand := false, readClosed := false, abandon := .stopped,
           clockHeld := true, upstream := [] }

/-- Port `p` becomes holder of `m` with the transfer `t`: the segment is ACTIVE, the port in ADDRESSING, and the engine is
told to begin the address phase (R58, R63, R65). -/
def State.grant (s : State) (m : Seg) (p : Port) (t : Transfer) : State :=
  ((s.setSegState m (.active p)).onPort p (HostPort.enter (.addressing t))).orderPhase m p

/-- Port `p` is added at the tail of the grant queue of `m` (R58). -/
def State.enqueue (s : State) (m : Seg) (p : Port) (t : Transfer) : State :=
  (s.onSeg m (fun a => { a with queue := a.queue ++ [p] })).onPort p (HostPort.enter (.waiting t))

/-- An accepted transfer `t` of port `p` arrives at the arbiter of its segment (R58). DISABLED and FAULT do not arise, since
the check at arrival refuses in the same event; their reasons are given for completeness. -/
def State.arrive (s : State) (p : Port) (t : Transfer) : State :=
  let m := t.snap.seg
  match s.segs[m].state with
  | .idle => (s.startWait m p).grant m p t
  | .active _ => (s.startWait m p).enqueue m p t
  | .recovering _ =>
    if s.segs[m].queue.length < Config.grantCapacity then (s.startWait m p).enqueue m p t
    else s.refuse p .waitExpired t
  | .disabled => s.refuse p .segmentDisabled t
  | .fault => s.refuse p .segmentFault t

/-! ### Hand-over (R63) -/

/-- The queue is served from its head: each port has its check at grant, is granted or is answered with the reason, until
one is granted; when none is left the segment becomes IDLE (R63 ways 2 and 3). A queued port is in WAITING (R57). -/
def State.serve (m : Seg) : List Port → State → State
  | [], s => (s.onSeg m (fun a => { a with queue := [] })).setSegState m .idle
  | p :: rest, s =>
    let s₁ := s.onSeg m (fun a => { a with queue := rest })
    match s.ports[p].ctx with
    | .waiting t =>
      match s.checkAtGrant p t.dir t.snap with
      | none => s₁.grant m p t
      | some r => State.serve m rest (s₁.refuseWaiter m r p)
    | _ => State.serve m rest (s₁.stopWait m p)

/-- The pending disable of `m` takes effect: DISABLED, the flag cleared, every queued port refused with SEGMENT_DISABLED
(R63 way 1). -/
def State.disableNow (s : State) (m : Seg) : State :=
  State.refuseAll m .segmentDisabled s.segs[m].queue
    (s.onSeg m (fun a => { a with state := .disabled, disablePending := false, queue := [] }))

/-- The arbiter hands segment `m` over in one event (R63). -/
def State.handOver (s : State) (m : Seg) : State :=
  if s.segs[m].disablePending then s.disableNow m else State.serve m s.segs[m].queue s

/-- A release of segment `m` by its holder `p` (R62): the engine ends its service by `f`, the holder's wait timer stops, the
segment is handed over, and a line check left without a port is given up (R93). -/
def State.releaseBy (s : State) (m : Seg) (p : Port) (f : Engine → Engine) : State :=
  (((s.onEngine m f).stopWait m p).handOver m).onEngine m Engine.settle

/-- A release at which the engine ends the downstream transfer as its own state asks (R82, R86, R90, R93). -/
def State.release (s : State) (m : Seg) (p : Port) : State := s.releaseBy m p Engine.endService

/-! ### Breaks and recoveries -/

/-- The port's part of a break (R16): a write byte in hand is not acknowledged and BROKEN is recorded, a read byte in hand is
left undriven; the abandon timer restarts if the clock was held and otherwise runs on. -/
def HostPort.breakOff (t : Transfer) (h : HostPort) : HostPort :=
  let h₁ := { h with ctx := .broken t, byteInHand := false, clockHeld := false, upstream := [],
                     abandon := if h.clockHeld then abandonStart else h.abandon }
  match t.dir with
  | .write => if h.byteInHand then h₁.record .broken t else h₁
  | .read => h₁

/-- The parts of a break that HP*h* and its Notice Queue take (R102 steps 2 and 3). -/
def State.breakPort (s : State) (m : Seg) (p : Port) (t : Transfer) (cause : BreakCause) : State :=
  (s.onPort p (HostPort.breakOff t)).post p (.messageBroken cause) (t.snap.entry.map Prod.fst) (some m) 0#8

/-- The segment state as a recovery begins: a holder in ADDRESSING becomes the resume port (R64). -/
def State.recoveringState (s : State) (m : Seg) : SegState :=
  match s.segs[m].state with
  | .active p => .recovering (if s.ports[p].ctx.isAddressing then some p else none)
  | .recovering r => .recovering r
  | .idle => .recovering none
  | .fault => .recovering none
  | .disabled => .recovering none

/-- A recovery begins on `m` (R64, R104). -/
def State.beginRecovery (s : State) (m : Seg) (broken : Option Port) : State :=
  (s.onSeg m (fun a => { a with state := s.recoveringState m, recoveryCount := min 65535 (a.recoveryCount + 1) })).onEngine m
    (Engine.beginRecovery broken)

/-- The ports a recovery's outcome is told to: the broken port, and every port that holds the SEGMENT right now (R108). -/
def State.recoveryAudience (s : State) (m : Seg) : List Port :=
  allPorts.filter (fun p => s.engines[m].brokenPort = some p || s.rights[p].rights.segment)

/-- The outcome of a recovery on `m` is posted to each port of R108 once. -/
def State.postOutcome (s : State) (m : Seg) (k : NoticeKind) : State :=
  (s.recoveryAudience m).foldl (fun s p => s.post p k none (some m) 0#8) s

/-- The arbiter's part of a recovery's success (R65). -/
def State.resumeOrHandOver (s : State) (m : Seg) : State :=
  match s.segs[m].state with
  | .recovering (some p) => (s.setSegState m (.active p)).orderPhase m p
  | _ => s.handOver m

/-- A recovery on `m` succeeds (R106). -/
def State.recoverySucceeds (s : State) (m : Seg) : State :=
  ((s.onEngine m (Engine.endRecovery [.stop])).resumeOrHandOver m).postOutcome m .segmentRecovered

/-- The arbiter's part of a recovery's failure (R66). -/
def State.failSegment (s : State) (m : Seg) : State :=
  let a := s.segs[m]
  let ps := a.queue ++ (match a.state with
    | .recovering (some p) => [p]
    | _ => [])
  if a.disablePending then
    State.refuseAll m .segmentDisabled ps
      (s.onSeg m (fun a => { a with state := .disabled, disablePending := false, queue := [] }))
  else State.refuseAll m .segmentFault ps (s.onSeg m (fun a => { a with state := .fault, queue := [] }))

/-- A recovery on `m` fails (R107); `acts` is what the engine drove in this event. -/
def State.recoveryFails (s : State) (m : Seg) (acts : List BusAct) : State :=
  ((s.onEngine m (Engine.endRecovery acts)).failSegment m).postOutcome m .segmentFault

end Sys2Proof.Machine
end

