-- ==== Sys2Proof/Machine/Commands.lean ====
section
/-! DEFINITION. The Command Unit (spec 09): the rights step (R149), each of the 18 commands from its arguments step on, and
the frame taken at the end of a write transfer to the own address (R143, R144). -/

namespace Sys2Proof.Machine

/-- The response of a command refused at its arguments step (R144 step 4). -/
def State.badArgument (s : State) (p : Port) (op : Op) : State := s.respond p .badArgument (opCode op) []

/-! ### Directory commands -/

/-- INSR from its arguments step (R28 to R31). -/
def State.cmdInsr (s : State) (p : Port) (index visibleBase span segment targetBase visMask wpMask mode : Byte)
    (maxLease : Half) : State :=
  match decodeInsr index visibleBase span segment targetBase visMask wpMask mode maxLease with
  | none => s.badArgument p .insr
  | some (e, r) =>
    if (s.route e).isSome then s.respond p .occupied (opCode .insr) []
    else if !s.addressesFree r then s.respond p .reservedAddress (opCode .insr) []
    else
      match s.insrConflict e r with
      | some i => s.respond p .conflict (opCode .insr) [entryByte i]
      | none =>
        let g := s.directory[e].gen + 1#8
        (s.onEntry e (fun _ => { gen := g, route := some r })).respond p .ok (opCode .insr) [entryByte e, g]

/-- DELR from its arguments step (R32, R126). -/
def State.cmdDelr (s : State) (p : Port) (index : Byte) : State :=
  match decodeEntry index with
  | none => s.badArgument p .delr
  | some e =>
    match s.route e with
    | none => s.respond p .noEntry (opCode .delr) []
    | some r =>
      ((s.onEntry e (fun x => { x with route := none })).clearEntry e .routeRemoved .routeRemoved (some r.seg)).respond p
        .ok (opCode .delr) [entryByte e, s.directory[e].gen]

/-- The PENDING record of lowest order on `e` whose port is not in `vis` (R127 step 2). -/
def State.pendingUnseen (s : State) (e : EntryIx) (vis : PortMask) : Option (Slot × Lease) :=
  [1, 2, 3].findSome? (fun k => match s.pendingAt e k with
    | some x => if hasPort vis x.2.port then none else some x
    | none => none)

/-- The PENDING records on `e` of ports outside `vis` are cancelled from the lowest order, `n` at most (R127 step 2). -/
def State.cancelUnseen (e : EntryIx) (vis : PortMask) (m : Option Seg) : Nat → State → State
  | 0, s => s
  | n + 1, s =>
    match s.pendingUnseen e vis with
    | some x => State.cancelUnseen e vis m n (s.revoke x .visibilityLost m)
    | none => s

/-- Steps 1 to 3 of R127 for entry `e` with the new visibility mask `vis`. -/
def State.loseVisibility (s : State) (e : EntryIx) (vis : PortMask) (m : Option Seg) : State :=
  match s.heldOn e with
  | some x =>
    if hasPort vis x.2.port then State.cancelUnseen e vis m Config.grantCapacity s
    else (State.cancelUnseen e vis m Config.grantCapacity (s.revoke x .visibilityLost m)).promote e
  | none => State.cancelUnseen e vis m Config.grantCapacity s

/-- A record whose remaining time exceeds `ms` is cut to it; its token is kept (R128). -/
def Lease.cut (ms : Nat) (l : Lease) : Lease :=
  match l.status with
  | .held t n => { l with status := .held t (min n (ms * Config.ticksPerMs)) }
  | .pending _ => l

/-- The HELD record on `e`, if any, is cut to the new max lease (R128). -/
def State.cutHeld (s : State) (e : EntryIx) (ms : Nat) : State :=
  match s.heldOn e with
  | some (i, l) => s.setLease i (some (l.cut ms))
  | none => s

/-- The route of a MODR's entry with its new access fields (R34). -/
def Route.withAccess (r : Route) (x : AccessFields) : Route :=
  { r with vis := x.vis, wp := x.wp, mode := x.mode, maxLease := x.maxLease }

/-- MODR from its arguments step (R33, R34, R127, R128). -/
def State.cmdModr (s : State) (p : Port) (index visMask wpMask mode : Byte) (maxLease : Half) : State :=
  match decodeModr index visMask wpMask mode maxLease with
  | none => s.badArgument p .modr
  | some (e, x) =>
    match s.route e with
    | none => s.respond p .noEntry (opCode .modr) []
    | some r =>
      match s.modrConflict e (r.withAccess x) with
      | some i => s.respond p .conflict (opCode .modr) [entryByte i]
      | none =>
        (((s.onEntry e (fun y => { y with route := some (r.withAccess x) })).loseVisibility e x.vis (some r.seg)).cutHeld e
          x.maxLease).respond p .ok (opCode .modr) [entryByte e, s.directory[e].gen]

/-- The payload of RDRT (R35, R160). -/
def Entry.payload (e : EntryIx) (x : Entry) : List Byte :=
  match x.route with
  | some r =>
    [entryByte e, 1#8, x.gen, addrByte r.vbase, countByte r.span.size, segByte r.seg, addrByte r.tbase, maskByte r.vis,
      maskByte r.wp, modeByte r.mode] ++ halfBytes r.maxLease
  | none => [entryByte e, 0#8, x.gen, absent, absent, absent, absent, absent, absent, absent] ++ halfBytes 0

/-- RDRT from its arguments step (R35). -/
def State.cmdRdrt (s : State) (p : Port) (index : Byte) : State :=
  match decodeEntry index with
  | none => s.badArgument p .rdrt
  | some e => s.respond p .ok (opCode .rdrt) (s.directory[e].payload e)

/-- DFLT from its arguments step (R36). -/
def State.cmdDflt (s : State) (p : Port) (port segment : Byte) : State :=
  match decodeDflt port segment with
  | none => s.badArgument p .dflt
  | some (q, d) =>
    { s with defaults := tabUpd s.defaults q (fun _ => d) }.respond p .ok (opCode .dflt)
      [portByte q, segOrAbsent s.defaults[q], segOrAbsent d]

/-! ### Lease commands -/

/-- A record for `l` is made in the lowest-numbered FREE slot (R112). -/
def State.makeLease (s : State) (i : Slot) (p : Port) (e : EntryIx) (d : Nat) (st : LeaseStatus) : State :=
  s.setLease i (some { port := p, entry := e, gen := s.directory[e].gen, requested := d, status := st })

/-- LACQ from its arguments step (R117, R118). -/
def State.cmdLacq (s : State) (p : Port) (index : Byte) (duration : Half) (wait : Byte) : State :=
  match decodeLacq index duration wait with
  | none => s.badArgument p .lacq
  | some (e, d, w) =>
    match s.route e with
    | none => s.respond p .noEntry (opCode .lacq) []
    | some r =>
      if !hasPort r.vis p then s.respond p .noEntry (opCode .lacq) []
      else
        match s.recordOf p e with
        | some (_, l) =>
          s.respond p .already (opCode .lacq) ([l.status.code, l.token] ++ halfBytes (roundUpMs l.remaining))
        | none =>
          if s.rights[p].quota ≤ s.leaseCount p then
            s.respond p .quota (opCode .lacq) [countByte (s.leaseCount p), countByte s.rights[p].quota]
          else
            match s.freeSlot? with
            | none => s.respond p .tableFull (opCode .lacq) []
            | some i =>
              match s.heldOn e with
              | none =>
                let tok := s.tokenToIssue
                ((s.makeLease i p e d (.held tok (s.clip e d * Config.ticksPerMs))).afterIssue tok).respond p .ok
                  (opCode .lacq) ([entryByte e, tok] ++ halfBytes (s.clip e d))
              | some (_, h) =>
                if w then
                  let k := (s.pendingPorts e).length + 1
                  (s.makeLease i p e d (.pending k)).respond p .pending (opCode .lacq)
                    [entryByte e, countByte k, portByte h.port]
                else s.respond p .heldElsewhere (opCode .lacq) [portByte h.port]

/-- LREN from its arguments step (R119). -/
def State.cmdLren (s : State) (p : Port) (index token : Byte) (duration : Half) : State :=
  match decodeLren index duration with
  | none => s.badArgument p .lren
  | some (e, d) =>
    match s.recordOf p e with
    | none => s.respond p .notHeld (opCode .lren) []
    | some (i, l) =>
      if l.isHeld ∧ token = l.token then
        (s.setLease i (some { l with status := .held l.token (s.clip e d * Config.ticksPerMs) })).respond p .ok (opCode .lren)
          ([entryByte e, l.token] ++ halfBytes (s.clip e d))
      else s.respond p .stale (opCode .lren) []

/-- LREL with a non-zero token, after its arguments step (R120). -/
def State.releaseLease (s : State) (p : Port) (e : EntryIx) (token : Byte) : State :=
  match s.recordOf p e with
  | none => s.respond p .notHeld (opCode .lrel) []
  | some (i, l) =>
    if l.isHeld ∧ token = l.token then
      (s.freeAndPromote (i, l)).respond p .ok (opCode .lrel) [entryByte e, portOrAbsent (s.promotee e)]
    else s.respond p .stale (opCode .lrel) []

/-- LREL with token 0, after its arguments step (R121). -/
def State.cancelLease (s : State) (p : Port) (e : EntryIx) : State :=
  match s.recordOf p e with
  | none => s.respond p .notHeld (opCode .lrel) []
  | some (i, l) =>
    if l.isHeld then s.respond p .stale (opCode .lrel) []
    else (s.freeRecord (i, l)).respond p .ok (opCode .lrel) [entryByte e, absent]

/-- LREL from its arguments step (R120, R121). -/
def State.cmdLrel (s : State) (p : Port) (index token : Byte) : State :=
  match decodeEntry index with
  | none => s.badArgument p .lrel
  | some e => if token = 0#8 then s.cancelLease p e else s.releaseLease p e token

/-- LREV from its arguments step (R125). -/
def State.cmdLrev (s : State) (p : Port) (index : Byte) : State :=
  match decodeEntry index with
  | none => s.badArgument p .lrev
  | some e =>
    match s.route e with
    | none => s.respond p .noEntry (opCode .lrev) []
    | some r =>
      match s.heldOn e with
      | none => s.respond p .notHeld (opCode .lrev) []
      | some (_, l) =>
        (s.clearEntry e .byAdmin .cancelled (some r.seg)).respond p .ok (opCode .lrev)
          [entryByte e, portByte l.port, countByte (s.pendingPorts e).length]

/-- The port of pending place `k` (0 for the oldest), 0xFF where none (R160). -/
def pendingByte (ps : List Port) (k : Nat) : Byte := portOrAbsent ps[k]?

/-- LQRY from its arguments step (R130, R160). -/
def State.cmdLqry (s : State) (p : Port) (index : Byte) : State :=
  match decodeEntry index with
  | none => s.badArgument p .lqry
  | some e =>
    match s.route e with
    | none => s.respond p .noEntry (opCode .lqry) []
    | some _ =>
      let ps := s.pendingPorts e
      let tail := [countByte ps.length, pendingByte ps 0, pendingByte ps 1, pendingByte ps 2] ++
        (match s.recordOf p e with
        | some (_, l) => [l.status.code, countByte l.order]
        | none => [0#8, 0#8])
      match s.heldOn e with
      | some (_, l) =>
        s.respond p .ok (opCode .lqry)
          ([entryByte e, s.directory[e].gen, l.status.code, portByte l.port, if l.port = p then l.token else 0#8] ++
            halfBytes (roundUpMs l.remaining) ++ tail)
      | none =>
        s.respond p .ok (opCode .lqry) ([entryByte e, s.directory[e].gen, 0#8, absent, 0#8] ++ halfBytes 0 ++ tail)

/-! ### Segment commands -/

/-- The segment record after an SCFG stores its configuration and acts on the enable argument (R70). -/
def Arbiter.configure (c : SegConfig) (a : Arbiter) : Arbiter :=
  let a₁ := { a with enable := c.enable, shared := c.shared, waitLimit := c.waitLimit, holdLimit := c.holdLimit }
  match a.state, c.enable with
  | .idle, false => { a₁ with state := .disabled }
  | .idle, true => a₁
  | .active _, en => { a₁ with disablePending := !en }
  | .recovering _, en => { a₁ with disablePending := !en }
  | .fault, false => { a₁ with state := .disabled }
  | .fault, true => a₁
  | .disabled, false => a₁
  | .disabled, true => { a₁ with state := .idle }

/-- SCFG from its arguments step (R69, R70). -/
def State.cmdScfg (s : State) (p : Port) (segment enable shared waitLimit holdLimit : Byte) : State :=
  match decodeScfg segment enable shared waitLimit holdLimit with
  | none => s.badArgument p .scfg
  | some (m, c) =>
    let a := s.segs[m].configure c
    (s.onSeg m (Arbiter.configure c)).respond p (if a.disablePending then .accepted else .ok) (opCode .scfg)
      [segByte m, a.state.code, flagByte a.disablePending]

/-- The holder of a segment, present exactly in ACTIVE (R56). -/
def SegState.holder : SegState → Option Port
  | .active p => some p
  | _ => none

/-- The resume port of a segment, present only in RECOVERING (R56). -/
def SegState.resume : SegState → Option Port
  | .recovering r => r
  | _ => none

/-- The payload of SSTA (R72, R161). -/
def Arbiter.payload (m : Seg) (foreignBusy : Bool) (a : Arbiter) : List Byte :=
  [segByte m, a.state.code, portOrAbsent a.state.holder, portOrAbsent a.state.resume, countByte a.queue.length,
    pendingByte a.queue 0, pendingByte a.queue 1, pendingByte a.queue 2, segFlags a foreignBusy,
    countByte a.waitLimit, countByte a.holdLimit] ++ halfBytes a.lossCount ++ halfBytes a.recoveryCount

/-- SSTA from its arguments step (R72). -/
def State.cmdSsta (s : State) (p : Port) (segment : Byte) : State :=
  match decodeSeg segment with
  | none => s.badArgument p .ssta
  | some m => s.respond p .ok (opCode .ssta) (s.segs[m].payload m s.engines[m].foreignBusy)

/-- The action of SRCV on a segment that is neither RECOVERING nor DISABLED (R110): a holder in a relay state is broken with
RECOVERY_FORCED and becomes the broken port; then a recovery begins. -/
def State.forceRecovery (s : State) (m : Seg) : State :=
  match s.segs[m].state with
  | .active h =>
    match s.ports[h].ctx with
    | .relayWrite t => (s.breakPort m h t .recoveryForced).beginRecovery m (some h)
    | .relayRead t => (s.breakPort m h t .recoveryForced).beginRecovery m (some h)
    | _ => s.beginRecovery m none
  | _ => s.beginRecovery m none

/-- SRCV from its arguments step (R110). -/
def State.cmdSrcv (s : State) (p : Port) (segment : Byte) : State :=
  match decodeSeg segment with
  | none => s.badArgument p .srcv
  | some m =>
    match s.segs[m].state with
    | .recovering r => s.respond p .segBusy (opCode .srcv) [segByte m, (SegState.recovering r).code]
    | .disabled => s.respond p .segDisabled (opCode .srcv) [segByte m, SegState.disabled.code]
    | _ =>
      (s.forceRecovery m).respond p .accepted (opCode .srcv) [segByte m, ((s.forceRecovery m).segs[m].state).code]

/-! ### Notices and ports -/

/-- The queue after an NFET: the head is removed, the alert line released when nothing is left, the lost count cleared (R138). -/
def NoticeQueue.fetch (q : NoticeQueue) : NoticeQueue :=
  { q with records := q.records.tail, lost := 0, alert := if q.records.tail.isEmpty then false else q.alert }

/-- The payload of NFET on a queue (R138, R161). -/
def NoticeQueue.fetchPayload (q : NoticeQueue) : List Byte :=
  (match q.records with
  | n :: _ => n.bytes
  | [] => noNoticeBytes) ++ [countByte q.lost, countByte q.records.tail.length]

/-- NFET (R138). -/
def State.cmdNfet (s : State) (p : Port) : State :=
  (s.onNotices p NoticeQueue.fetch).respond p .ok (opCode .nfet) s.notices[p].fetchPayload

/-- The four bytes of a last-refusal record before its count; a cleared one reads reason 0 and 0xFF (R161). -/
def HostPort.refusalBytes (h : HostPort) : List Byte :=
  match h.lastRefusal with
  | some r => [r.reason.code, addrByte r.vaddr, dirByte r.dir, entryOrAbsent r.entry]
  | none => [0#8, absent, absent, absent]

/-- The payload of PSTA for port `q` (R155, R161). -/
def State.portStatus (s : State) (q : Port) : List Byte :=
  [portByte q, s.ports[q].ctx.code, segOrAbsent (s.ports[q].ctx.transfer?.map (fun t => t.snap.seg)),
    s.rights[q].rights.byte, countByte s.rights[q].quota, countByte (s.leaseCount q), segOrAbsent s.defaults[q],
    countByte s.notices[q].records.length, countByte s.notices[q].lost] ++ s.ports[q].refusalBytes ++
    [countByte s.ports[q].refusalCount]

/-- PSTA from its arguments step (R155). -/
def State.cmdPsta (s : State) (p : Port) (port : Byte) : State :=
  match decodePort port with
  | none => s.badArgument p .psta
  | some q => s.respond p .ok (opCode .psta) (s.portStatus q)

/-- A port other than `q` holds ADMIN (R150). -/
def State.adminElsewhere (s : State) (q : Port) : Bool := allPorts.any (fun p => p ≠ q && s.rights[p].rights.admin)

/-- RGHT from its arguments step (R150). -/
def State.cmdRght (s : State) (p : Port) (port rights quota : Byte) : State :=
  match decodeRght port rights quota with
  | none => s.badArgument p .rght
  | some (q, row) =>
    if !row.rights.admin && !s.adminElsewhere q then s.respond p .lastAdmin (opCode .rght) []
    else
      (s.onRights q (fun _ => row)).respond p .ok (opCode .rght)
        [portByte q, row.rights.byte, countByte row.quota, countByte (s.leaseCount q)]

/-! ### Port reset -/

/-- The port context after a port reset taken on another port: IDLE and passive, the last-refusal record cleared (R21). -/
def HostPort.portReset (h : HostPort) : HostPort :=
  { h.toIdle false with lastRefusal := none, refusalCount := 0 }

/-- The last-refusal record cleared, as R21 asks when the port resets itself. -/
def HostPort.clearRefusal (h : HostPort) : HostPort := { h with lastRefusal := none, refusalCount := 0 }

/-- Step 1 of a port reset of `q` by another port: what HP*q*, the arbiter and the engine do by `q`'s context state (R21, R68). -/
def State.resetContext (s : State) (q : Port) : State :=
  let s₁ := s.onPort q HostPort.portReset
  match s.ports[q].ctx with
  | .idle => s₁
  | .waiting t => (s₁.leaveQueue t.snap.seg q).stopWait t.snap.seg q
  | .addressing t =>
    match s.segs[t.snap.seg].state with
    | .recovering _ => (s₁.setSegState t.snap.seg (.recovering none)).stopWait t.snap.seg q
    | _ => s₁.release t.snap.seg q
  | .relayWrite t => s₁.release t.snap.seg q
  | .relayRead t => s₁.release t.snap.seg q
  | .broken _ => s₁
  | .commandIn => s₁.onBuffer q (fun _ => FrameBuffer.reset)
  | .responseOut .. => s₁

/-- Step 2 of a port reset of `q` on entry `e`: its record there, if any, is freed, and a HELD one is followed by a
promotion (R129). -/
def State.freeOwn (q : Port) (s : State) (e : EntryIx) : State :=
  match s.recordOf q e with
  | some x => if x.2.isHeld then s.freeAndPromote x else s.freeRecord x
  | none => s

/-- Step 2 of a port reset: the records of `q` in ascending order of entry index (R129). -/
def State.freeAllOwn (s : State) (q : Port) : State := allEntries.foldl (State.freeOwn q) s

/-- Step 3 of a port reset: the queue is cleared and PORT_RESET stored, the sequence counter running on (R140). -/
def NoticeQueue.portReset (issuer : Port) (q : NoticeQueue) : NoticeQueue :=
  NoticeQueue.store (.portReset issuer) none none 0#8 { q with records := [], lost := 0 }

/-- A port reset of `q` issued on port `p`, steps 1 to 4 (R153). -/
def State.portReset (s : State) (p q : Port) : State :=
  let s₁ := if q = p then s.onPort q HostPort.clearRefusal else s.resetContext q
  ((s₁.freeAllOwn q).onNotices q (NoticeQueue.portReset p)).onResponse q (fun _ => Response.reset)

/-- PRST from its arguments step (R152, R153). -/
def State.cmdPrst (s : State) (p : Port) (port : Byte) : State :=
  match decodePort port with
  | none => s.badArgument p .prst
  | some q => (s.portReset p q).respond p .ok (opCode .prst) [portByte q, countByte (s.leaseCount q)]

/-- IDNT (R156). -/
def State.cmdIdnt (s : State) (p : Port) : State :=
  s.respond p .ok (opCode .idnt)
    [Config.vendorCode, Config.partCode, Config.revision, 4#8, 8#8, 48#8, 16#8, addrByte s.ownAddr,
      BitVec.ofNat 8 s.admSel.toNat]

/-! ### The check order (R144) -/

/-- The rights step: the caller's row as it stands (R149). PRST reads its port argument byte. -/
def State.mayIssue (s : State) (p : Port) (c : Command) : Bool :=
  let r := s.rights[p].rights
  match c with
  | .insr .. => r.route
  | .delr .. => r.route
  | .modr .. => r.route
  | .dflt .. => r.route
  | .lacq .. => r.lease
  | .lren .. => r.lease
  | .lrel .. => r.lease
  | .scfg .. => r.segment
  | .srcv .. => r.segment
  | .rght .. => r.admin
  | .lrev .. => r.admin
  | .prst q => q = portByte p || r.admin
  | .rdrt .. => true
  | .lqry .. => true
  | .ssta .. => true
  | .psta .. => true
  | .nfet => true
  | .idnt => true

/-- A command from its arguments step on. -/
def State.perform (s : State) (p : Port) (c : Command) : State :=
  match c with
  | .insr a b c d e f g h i => s.cmdInsr p a b c d e f g h i
  | .delr a => s.cmdDelr p a
  | .modr a b c d e => s.cmdModr p a b c d e
  | .rdrt a => s.cmdRdrt p a
  | .dflt a b => s.cmdDflt p a b
  | .lacq a b c => s.cmdLacq p a b c
  | .lren a b c => s.cmdLren p a b c
  | .lrel a b => s.cmdLrel p a b
  | .lrev a => s.cmdLrev p a
  | .lqry a => s.cmdLqry p a
  | .scfg a b c d e => s.cmdScfg p a b c d e
  | .ssta a => s.cmdSsta p a
  | .srcv a => s.cmdSrcv p a
  | .nfet => s.cmdNfet p
  | .psta a => s.cmdPsta p a
  | .rght a b c => s.cmdRght p a b c
  | .prst a => s.cmdPrst p a
  | .idnt => s.cmdIdnt p

/-- A command from its rights step on: the caller is port `p` (R144 steps 3 to 5, R145). -/
def State.runCommand (s : State) (p : Port) (c : Command) : State :=
  if s.mayIssue p c then s.perform p c else s.respond p .denied (opCode c.op) []

/-- The frame of port `p` is taken: the buffer is read and emptied, an empty frame is no command, and the code and length
steps come first (R143, R144 steps 1 and 2). -/
def State.takeFrame (s : State) (p : Port) : State :=
  let b := s.buffers[p]
  let s₁ := s.onBuffer p (fun _ => FrameBuffer.reset)
  match b.bytes with
  | [] => s₁
  | code :: args =>
    match opOfCode code with
    | none => s₁.respond p .badCommand code []
    | some op =>
      if b.overlong then s₁.respond p .badLength code []
      else
        match buildCommand op args with
        | none => s₁.respond p .badLength code []
        | some c => s₁.runCommand p c

end Sys2Proof.Machine
end

