-- ==== Sys2Proof/Machine/HostBus.lean ====
section
/-! DEFINITION. The events of a host bus (spec 01): start, repeated start, address byte, data byte, the host's answers,
stop. -/

namespace Sys2Proof.Machine

/-! ### The address byte -/

/-- The port enters COMMAND_IN: the address is acknowledged, the frame buffer is emptied, the abandon timer starts (R4 case
2, R6). -/
def State.enterCommandIn (s : State) (p : Port) : State :=
  (s.onPort p (fun h => { h.toIdle false with ctx := .commandIn }.await [.acknowledge])).onBuffer p
    (fun _ => FrameBuffer.reset)

/-- The port enters RESPONSE_OUT: the address is acknowledged and the first byte of the response record supplied (R4 case 3,
R8). -/
def State.enterResponseOut (s : State) (p : Port) : State :=
  s.onPort p (fun h => { h.toIdle false with ctx := .responseOut 0 false }.await
    [.acknowledge, .supply (s.responses[p].byteAt 0)])

/-- A relay address: the check at arrival, then the arbiter, or a refusal (R9). -/
def State.relayArrival (s : State) (p : Port) (t : Transfer) : State :=
  match s.checkAtArrival p t.dir t.snap with
  | some r => s.refuse p r t
  | none => s.arrive p t

/-- The classification of an address byte on a port that is IDLE with address expected yes (R4). -/
def State.classify (s : State) (p : Port) (a : Addr) (d : Dir) : State :=
  if reservedAddr a then s.onPort p (HostPort.toIdle false)
  else if a = s.ownAddr then
    match d with
    | .write => s.enterCommandIn p
    | .read => s.enterResponseOut p
  else
    match s.resolve p a with
    | some n => s.relayArrival p { vaddr := a, dir := d, snap := n }
    | none => s.onPort p (HostPort.toIdle false)

/-- The engine takes a repeated start on the segment it owns: it closes the transfer in hand, copies the new target, sets the
retry count to 0 and enters STARTING with bus owned yes (R88). -/
def Engine.restart (target : Addr × Dir) (e : Engine) : Engine :=
  { e with state := .starting, target := some target, retry := 0, activity := .none
           bus := match e.activity with
             | .slotOpen => [.notAcknowledge]
             | _ => [] }

/-- Case 1 of R15: the new transfer `t` is on the segment the port holds. It is checked once; accepted, the port keeps its
grant and enters ADDRESSING; refused, the segment is released. -/
def State.sameSegment (s : State) (p : Port) (t : Transfer) : State :=
  match s.checkAtArrival p t.dir t.snap with
  | none =>
    ((s.startWait t.snap.seg p).onPort p (HostPort.enter (.addressing t))).onEngine t.snap.seg
      (Engine.restart (t.snap.target, t.dir))
  | some r => (s.refuse p r t).release t.snap.seg p

/-- Case 2 of R15: the segment `m` is released, and the address is handled as R4 states for an IDLE port. -/
def State.leaveSegment (s : State) (m : Seg) (p : Port) (a : Addr) (d : Dir) : State :=
  ((s.onPort p (HostPort.toIdle false)).release m p).classify p a d

/-- An address byte on a port that holds segment `m`, after a repeated start (R15). -/
def State.addressWhileHolding (s : State) (m : Seg) (p : Port) (a : Addr) (d : Dir) : State :=
  if reservedAddr a || a == s.ownAddr then s.leaveSegment m p a d
  else
    match s.resolve p a with
    | some n =>
      if n.seg = m then s.sameSegment p { vaddr := a, dir := d, snap := n } else s.leaveSegment m p a d
    | none => s.leaveSegment m p a d

/-- ADDRESS_BYTE (R3, R4, R15, R17). -/
def execAddressByte (p : Port) (a : Addr) (d : Dir) (s : State) : Result :=
  let h := s.ports[p]
  if h.clockHeld then .refused .hostClockHeld
  else
    match h.ctx, h.addrExpected with
    | .idle, true => .next (s.classify p a d)
    | .idle, false => .next (s.onPort p (HostPort.toIdle false))
    | .relayWrite t, true => .next (s.addressWhileHolding t.snap.seg p a d)
    | .relayRead t, true => .next (s.addressWhileHolding t.snap.seg p a d)
    | .broken _, true => .next (s.classify p a d)
    | _, _ => .refused .addressByteNotDue

/-! ### Start and repeated start -/

/-- A start or repeated start by the context state (R3, R7, R8, R13, R14, R15, R17). In any state but IDLE a start condition
is a repeated start (spec 01, 1.2). -/
def State.startCondition (s : State) (p : Port) : Result :=
  let h := s.ports[p]
  if h.clockHeld then .refused .hostClockHeld
  else
    match h.ctx with
    | .idle => .next (s.onPort p (HostPort.toIdle true))
    | .commandIn => .next ((s.onPort p (HostPort.toIdle true)).takeFrame p)
    | .responseOut .. => .next (s.onPort p (HostPort.toIdle true))
    | .broken _ => .next (s.onPort p (HostPort.toIdle true))
    | .relayWrite _ => .next (s.onPort p (fun h => { h with addrExpected := true }.await []))
    | .relayRead _ => .next (s.onPort p (fun h => { h with addrExpected := true }.await []))
    | .waiting _ => .refused .hostClockHeld
    | .addressing _ => .refused .hostClockHeld

/-- START (R3). -/
def execStart (p : Port) (s : State) : Result := s.startCondition p

/-- REPEATED_START (R7, R8, R13 to R15, R17). -/
def execRepeatedStart (p : Port) (s : State) : Result := s.startCondition p

/-! ### Data bytes -/

/-- A byte of a command frame: stored and acknowledged while fewer than 24 are held, otherwise not acknowledged and the
overlong marker set (R6). -/
def State.frameByte (s : State) (p : Port) (b : Byte) : State :=
  if s.buffers[p].bytes.length < Config.frameCapacity then
    (s.onBuffer p (fun f => { f with bytes := f.bytes ++ [b] })).onPort p (HostPort.await [.acknowledge])
  else (s.onBuffer p (fun f => { f with overlong := true })).onPort p (HostPort.await [])

/-- The engine of `m` serves port `p`, in state `st` with byte activity `act`, and is not closing. -/
def Engine.serves (e : Engine) (p : Port) (st : EngState) (act : ByteAct) : Bool :=
  e.served = some p && e.state = st && e.activity = act && !e.isClosing

/-- A write byte is handed to the engine, which clocks it onto the segment (R13, R81). -/
def Engine.clockWrite (b : Byte) (e : Engine) : Engine := { e with activity := .clocking, bus := [.write b] }

/-- DATA_BYTE (R3, R6, R13, R17). -/
def execDataByte (p : Port) (b : Byte) (s : State) : Result :=
  let h := s.ports[p]
  if h.clockHeld then .refused .hostClockHeld
  else
    match h.ctx with
    | .idle => .next (s.onPort p (fun h => { h with upstream := [] }))
    | .commandIn => .next (s.frameByte p b)
    | .relayWrite t =>
      if h.addrExpected then .refused .addressByteDue
      else if s.engines[t.snap.seg].serves p .writing .none then
        .next ((s.onPort p HostPort.hold).onEngine t.snap.seg (Engine.clockWrite b))
      else .fault .blocksDisagree
    | .broken t =>
      if h.addrExpected then .refused .addressByteDue
      else
        match t.dir with
        | .write => .next (s.onPort p (fun h => (h.record .broken t).await []))
        | .read => .refused .wrongDirection
    | .relayRead _ => if h.addrExpected then .refused .addressByteDue else .refused .wrongDirection
    | .responseOut .. => .refused .wrongDirection
    | .waiting _ => .refused .hostClockHeld
    | .addressing _ => .refused .hostClockHeld

/-! ### The host's answers to supplied bytes -/

/-- The host's acknowledge is passed on and the next byte is fetched, in one act (R84). -/
def Engine.ackAndFetch (e : Engine) : Engine := { e with activity := .clocking, bus := [.acknowledge, .fetch] }

/-- The host's not-acknowledge is passed on (R85). -/
def Engine.nackSlot (e : Engine) : Engine := { e with activity := .none, bus := [.notAcknowledge] }

/-- HOST_ACKNOWLEDGE (R3, R8, R14, R17, R84). -/
def execHostAcknowledge (p : Port) (s : State) : Result :=
  let h := s.ports[p]
  if h.clockHeld then .refused .hostClockHeld
  else
    match h.ctx with
    | .idle => .next (s.onPort p (fun h => { h with upstream := [] }))
    | .responseOut pos closed =>
      if closed then .next (s.onPort p (HostPort.await []))
      else
        .next (s.onPort p (fun h => { h with ctx := .responseOut (pos + 1) false }.await
          [.supply (s.responses[p].byteAt (pos + 1))]))
    | .relayRead t =>
      if h.addrExpected then .refused .addressByteDue
      else if h.readClosed then .next (s.onPort p (HostPort.await []))
      else if s.engines[t.snap.seg].serves p .reading .slotOpen then
        .next ((s.onPort p HostPort.hold).onEngine t.snap.seg Engine.ackAndFetch)
      else .fault .blocksDisagree
    | .broken t =>
      if h.addrExpected then .refused .addressByteDue
      else
        match t.dir with
        | .read => .next (s.onPort p (HostPort.await []))
        | .write => .refused .wrongDirection
    | .relayWrite _ => if h.addrExpected then .refused .addressByteDue else .refused .wrongDirection
    | .commandIn => .refused .wrongDirection
    | .waiting _ => .refused .hostClockHeld
    | .addressing _ => .refused .hostClockHeld

/-- HOST_NOT_ACKNOWLEDGE (R3, R8, R14, R17, R85). -/
def execHostNotAcknowledge (p : Port) (s : State) : Result :=
  let h := s.ports[p]
  if h.clockHeld then .refused .hostClockHeld
  else
    match h.ctx with
    | .idle => .next (s.onPort p (fun h => { h with upstream := [] }))
    | .responseOut pos _ => .next (s.onPort p (fun h => { h with ctx := .responseOut pos true }.await []))
    | .relayRead t =>
      if h.addrExpected then .refused .addressByteDue
      else if h.readClosed then .next (s.onPort p (HostPort.await []))
      else if s.engines[t.snap.seg].serves p .reading .slotOpen then
        .next ((s.onPort p (fun h => { h with readClosed := true }.await [])).onEngine t.snap.seg Engine.nackSlot)
      else .fault .blocksDisagree
    | .broken t =>
      if h.addrExpected then .refused .addressByteDue
      else
        match t.dir with
        | .read => .next (s.onPort p (HostPort.await []))
        | .write => .refused .wrongDirection
    | .relayWrite _ => if h.addrExpected then .refused .addressByteDue else .refused .wrongDirection
    | .commandIn => .refused .wrongDirection
    | .waiting _ => .refused .hostClockHeld
    | .addressing _ => .refused .hostClockHeld

/-! ### Stop -/

/-- A relayed transfer of port `p` on segment `m` ends: the port is IDLE and passive and the segment is released (R13, R14,
R19). -/
def State.endRelay (s : State) (m : Seg) (p : Port) : State := (s.onPort p (HostPort.toIdle false)).release m p

/-- STOP (R3, R7, R8, R13, R14, R15, R17). -/
def execStop (p : Port) (s : State) : Result :=
  let h := s.ports[p]
  if h.clockHeld then .refused .hostClockHeld
  else
    match h.ctx with
    | .idle => .next (s.onPort p (HostPort.toIdle false))
    | .commandIn => .next ((s.onPort p (HostPort.toIdle false)).takeFrame p)
    | .responseOut .. => .next (s.onPort p (HostPort.toIdle false))
    | .broken _ => .next (s.onPort p (HostPort.toIdle false))
    | .relayWrite t => .next (s.endRelay t.snap.seg p)
    | .relayRead t => .next (s.endRelay t.snap.seg p)
    | .waiting _ => .refused .hostClockHeld
    | .addressing _ => .refused .hostClockHeld

end Sys2Proof.Machine
end

