-- ==== Sys2Proof/Machine/SegmentBus.lean ====
section
/-! DEFINITION. The events of a segment (spec 05, 06): the line check, the target's answers, the bytes of a read, a closing,
the stop, held lines, foreign masters, arbitration losses and recoveries. -/

namespace Sys2Proof.Machine

/-! ### The address phase -/

/-- The line check of `m` passes (R77, R97). With bus owned no, shared mode needs the foreign-busy flag clear. -/
def Engine.mayStart (e : Engine) : Bool :=
  e.state = .starting && (e.busOwned || !e.sharedMode || !e.foreignBusy)

/-- LINE_CHECK_PASSED (R77, R78, R97, R99). -/
def execLineCheckPassed (m : Seg) (s : State) : Result :=
  let e := s.engines[m]
  if e.mayStart then
    match e.target with
    | some (a, d) => .next (s.onEngine m (Engine.driveStart a d))
    | none => .fault .blocksDisagree
  else .refused .engineNotAtStep

/-- The engine is clocking a byte of state `st` for the port it serves. -/
def Engine.clocks (e : Engine) (st : EngState) : Bool := e.state = st && e.activity = .clocking && !e.isClosing

/-- The target's acknowledge of its address upstream: a write transfer enters RELAY_WRITE; a read transfer enters RELAY_READ
with its first byte asked for and the clock held for it (R11, R12, R14, R79). -/
def HostPort.addressAcknowledged (t : Transfer) (h : HostPort) : HostPort :=
  match t.dir with
  | .write => { h with ctx := .relayWrite t }.answer [.acknowledge]
  | .read => { { h with ctx := .relayRead t, readClosed := false }.hold with upstream := [.acknowledge] }

/-- The target's acknowledge of its address at the engine (R79). -/
def Engine.addressAcknowledged (d : Dir) (e : Engine) : Engine :=
  match d with
  | .write => { e with state := .writing, activity := .none, hold := .stopped }
  | .read => { e with state := .reading, activity := .clocking, hold := .stopped, bus := [.fetch] }

/-- The port an engine serves with its transfer, when that port is in ADDRESSING. -/
def State.servedAddressing (s : State) (m : Seg) : Option (Port × Transfer) :=
  match s.engines[m].served with
  | some p =>
    match s.ports[p].ctx with
    | .addressing t => some (p, t)
    | _ => none
  | none => none

/-- The port an engine serves with its transfer, when that port is in RELAY_WRITE or RELAY_READ. -/
def State.servedRelay (s : State) (m : Seg) : Option (Port × Transfer) :=
  match s.engines[m].served with
  | some p =>
    match s.ports[p].ctx with
    | .relayWrite t => some (p, t)
    | .relayRead t => some (p, t)
    | _ => none
  | none => none

/-- TARGET_ACKNOWLEDGES_ADDRESS (R11, R59, R79). -/
def execTargetAcknowledgesAddress (m : Seg) (s : State) : Result :=
  if s.engines[m].clocks .address then
    match s.servedAddressing m with
    | some (p, t) =>
      .next (((s.stopWait m p).onPort p (HostPort.addressAcknowledged t)).onEngine m (Engine.addressAcknowledged t.dir))
    | none => .fault .blocksDisagree
  else .refused .engineNotAtStep

/-- TARGET_NACK (R11, R62, R80). -/
def execTargetNack (m : Seg) (s : State) : Result :=
  if s.engines[m].clocks .address then
    match s.servedAddressing m with
    | some (p, t) => .next ((s.refuse p .targetNack t).releaseBy m p Engine.nackStop)
    | none => .fault .blocksDisagree
  else .refused .engineNotAtStep

/-! ### Bytes -/

/-- WRITE_BYTE_ANSWERED (R13, R81). -/
def execWriteByteAnswered (m : Seg) (acked : Bool) (s : State) : Result :=
  if s.engines[m].clocks .writing then
    match s.servedRelay m with
    | some (p, _) =>
      .next ((s.onPort p (HostPort.answer (if acked then [.acknowledge] else []))).onEngine m
        (fun e => { e with activity := .none, hold := .stopped }))
    | none => .fault .blocksDisagree
  else .refused .engineNotAtStep

/-- READ_BYTE_FETCHED (R14, R83). -/
def execReadByteFetched (m : Seg) (b : Byte) (s : State) : Result :=
  if s.engines[m].clocks .reading then
    match s.servedRelay m with
    | some (p, _) =>
      .next ((s.onPort p (HostPort.answer [.supply b])).onEngine m
        (fun e => { e with activity := .slotOpen, hold := .stopped }))
    | none => .fault .blocksDisagree
  else .refused .engineNotAtStep

/-- The engine has finished the byte of a released transfer (R90): it drives the stop, closing the read first where the byte
was a read byte; after an acknowledged read address it fetches one byte, which it will discard. -/
def Engine.finishClosing (acked : Bool) (e : Engine) : Engine :=
  let e₁ := { e with closing := false, activity := .none, hold := .stopped }
  if e.discarding then e₁.driveStop [.notAcknowledge]
  else
    match e.state with
    | .reading => e₁.driveStop [.notAcknowledge]
    | .address =>
      match e.target, acked with
      | some (_, .read), true =>
        { e₁ with state := .reading, activity := .clocking, discarding := true, bus := [.fetch] }
      | _, _ => e₁.driveStop []
    | _ => e₁.driveStop []

/-- CLOSING_BYTE_FINISHED (R90, R91). -/
def execClosingByteFinished (m : Seg) (acked : Bool) (s : State) : Result :=
  if s.engines[m].isClosing && s.engines[m].activity = .clocking then
    .next (s.onEngine m (Engine.finishClosing acked))
  else .refused .engineNotAtStep

/-- The engine's stop completes (R91): bus owned no, hold timer stopped, target cleared; a served port's start is prepared, or
the engine goes QUIET. A foreign-busy flag still set on a segment made dedicated is cleared by this stop (R96). -/
def Engine.stopCompleted (target : Option (Addr × Dir)) (shared : Bool) (e : Engine) : Engine :=
  let e₁ := { e with busOwned := false, hold := .stopped, target := none, foreignBusy := e.foreignBusy && shared }
  match e.served with
  | some _ => { e₁ with target := target }.enterStarting shared
  | none => e₁.toQuiet

/-- STOP_COMPLETE (R91). -/
def execStopComplete (m : Seg) (s : State) : Result :=
  if s.engines[m].state = .stopping then
    .next (s.onEngine m (Engine.stopCompleted (s.engines[m].served.bind s.targetOf) s.segs[m].shared))
  else .refused .engineNotAtStep

/-! ### Held lines -/

/-- LINE_HELD (R77, R94, R97, R105): a line that the engine needs high is timed; at the test of a recovery's look a data line
held low sends the engine to a pulse (step 2); at any other point the engine does not time the line. -/
def execLineHeld (m : Seg) (l : Line) (s : State) : Result :=
  let e := s.engines[m]
  if e.watches l then .next (s.onEngine m (Engine.timeLine s.segs[m].holdLimit l))
  else if l = .data && e.testsData then .next (s.onEngine m (fun e => { e with recStep := .pulse }))
  else .next s

/-- LINE_RELEASED (R77, R94, R97, R105, R109): the timing of that line stops and the other line's goes on; at the test of a
recovery's look a data line that is high sends the engine to the stop (step 2); a release that nothing is timing is seen by
no block. -/
def execLineReleased (m : Seg) (l : Line) (s : State) : Result :=
  if l = .data && s.engines[m].testsData then .next (s.onEngine m (fun e => { e with recStep := .stop }))
  else .next (s.onEngine m (fun e => { e with hold := e.hold.onLine l .stopped }))

/-- A hold expiry while the engine serves no port in a relay state: in STOPPING, or while closing (R92, R103). -/
def State.holdExpiryUnserved (s : State) (m : Seg) : State :=
  match s.segs[m].state with
  | .disabled => s.onEngine m Engine.toQuiet
  | _ => s.beginRecovery m none

/-- HOLD_TIMER_EXPIRY (R77, R92, R95, R102, R103, R105, R107). -/
def execHoldTimerExpiry (m : Seg) (s : State) : Result :=
  let e := s.engines[m]
  if !e.hold.isRunning then .refused .timerNotRunning
  else if e.isClosing then .next (s.holdExpiryUnserved m)
  else
    match e.state with
    | .stopping => .next (s.holdExpiryUnserved m)
    | .starting => .next (s.beginRecovery m none)
    | .address => .next (s.beginRecovery m none)
    | .writing =>
      match s.servedRelay m with
      | some (p, t) => .next ((s.breakPort m p t .holdExpired).beginRecovery m (some p))
      | none => .fault .blocksDisagree
    | .reading =>
      match s.servedRelay m with
      | some (p, t) => .next ((s.breakPort m p t .holdExpired).beginRecovery m (some p))
      | none => .fault .blocksDisagree
    | .recovering => .next (s.recoveryFails m [])
    | .quiet => .fault .blocksDisagree

/-! ### Recovery -/

/-- The pulse count when the pulse in hand has completed: a pulse already driven and released is counted (R105 step 3). -/
def Engine.pulseCount (e : Engine) : Nat := if e.recStep = .pulsing then e.pulses else e.pulses + 1

/-- A pulse has completed and the data line is tested (R105 steps 2 and 3): high sends the engine to the stop, low to the next
pulse. -/
def Engine.pulsed (dataHigh : Bool) (e : Engine) : Engine :=
  { e with pulses := e.pulseCount, hold := .stopped, recStep := if dataHigh then .stop else .pulse, bus := [.pulse] }

/-- The engine is at a pulse: with a further one to drive, from the look or after a test, or with one driven (R105). -/
def Engine.atPulse (e : Engine) : Bool :=
  e.state = .recovering && (e.recStep = .pulsing || e.recStep ≠ .stop && decide (e.pulses < Config.pulseLimit))

/-- RECOVERY_PULSE (R105, R107): at a count of 9 a data line still low fails the recovery. -/
def execRecoveryPulse (m : Seg) (dataHigh : Bool) (s : State) : Result :=
  let e := s.engines[m]
  if e.atPulse then
    let s₁ := s.onEngine m (Engine.pulsed dataHigh)
    if !dataHigh && decide (Config.pulseLimit ≤ e.pulseCount) then .next (s₁.recoveryFails m [.pulse]) else .next s₁
  else .refused .engineNotAtStep

/-- RECOVERY_SUCCEEDED (R105 step 4, R106). -/
def execRecoverySucceeded (m : Seg) (s : State) : Result :=
  if s.engines[m].state = .recovering ∧ (s.engines[m].recStep = .look ∨ s.engines[m].recStep = .stop) then
    .next (s.recoverySucceeds m)
  else .refused .engineNotAtStep

/-! ### Foreign masters -/

/-- The engine is in a message in which it can lose arbitration (R98). -/
def Engine.contends (e : Engine) : Bool := e.sharedMode && e.busOwned && e.state ≠ .recovering

/-- A loss in the address phase of port `p` (R99): below three attempts the engine waits and tries again; the third loss is
refused and releases the segment. -/
def State.lossInAddress (s : State) (m : Seg) (p : Port) (t : Transfer) : State :=
  if s.engines[m].retry < Config.attemptLimit then
    s.onEngine m (Engine.enterStarting s.segs[m].shared)
  else (s.refuse p .arbitrationLost t).releaseBy m p Engine.toQuiet

/-- A loss in the data phase of port `p` breaks the transfer and is a release (R100, R102). -/
def State.lossInData (s : State) (m : Seg) (p : Port) (t : Transfer) : State :=
  (s.breakPort m p t .arbitrationLost).releaseBy m p Engine.toQuiet

/-- A loss while the engine serves no port in a relay state: the closing is given up, and a new holder's start is prepared
(R101). -/
def State.lossUnserved (s : State) (m : Seg) : State :=
  match s.engines[m].served with
  | some p =>
    s.onEngine m (fun e => { e with discarding := false, target := s.targetOf p }.enterStarting s.segs[m].shared)
  | none => s.onEngine m Engine.toQuiet

/-- An arbitration loss on `m`: what R98 does, then R99, R100 or R101 by whom the engine was serving. -/
def State.lose (s : State) (m : Seg) : Result :=
  let e := s.engines[m]
  let s₁ := (s.onEngine m Engine.lose).onSeg m (fun a => { a with lossCount := min 65535 (a.lossCount + 1) })
  if e.isClosing || e.state = .stopping then .next (s₁.lossUnserved m)
  else
    match s.servedAddressing m with
    | some (p, t) => .next (s₁.lossInAddress m p t)
    | none =>
      match s.servedRelay m with
      | some (p, t) => .next (s₁.lossInData m p t)
      | none => .fault .blocksDisagree

/-- ARBITRATION_LOSS (R98 to R101). -/
def execArbitrationLoss (m : Seg) (s : State) : Result :=
  if s.engines[m].contends then s.lose m else .refused .noContest

/-- FOREIGN_START (R96, R98): with bus owned no it sets the foreign-busy flag of a shared segment; within a message of the
part in shared mode it is an arbitration loss; otherwise, and in RECOVERING, it is not observed. -/
def execForeignStart (m : Seg) (s : State) : Result :=
  let e := s.engines[m]
  if e.contends then s.lose m
  else if e.state = .recovering || e.busOwned || !s.segs[m].shared then .next s
  else .next (s.onEngine m (fun e => { e with foreignBusy := true }))

/-- The foreign-busy flag cleared (R96). -/
def Engine.clearForeign (e : Engine) : Engine := { e with foreignBusy := false }

/-- FOREIGN_STOP (R96 to R98): within a message of the part in shared mode it is an arbitration loss. With bus owned no it
clears the foreign-busy flag, and a start waiting for that is driven in the same event when both lines are high (R97). With bus
owned yes it clears a flag left on a segment made dedicated: "the next stop condition it observes on the segment, whoever drove
it". In RECOVERING it is not observed. -/
def execForeignStop (m : Seg) (linesHigh : Bool) (s : State) : Result :=
  let e := s.engines[m]
  if e.contends then s.lose m
  else if e.state = .recovering then .next s
  else if e.busOwned then
    if s.segs[m].shared then .next s else .next (s.onEngine m Engine.clearForeign)
  else if e.foreignBusy then
    if linesHigh && e.state = .starting && e.sharedMode then
      match e.target with
      | some (a, d) => .next ((s.onEngine m Engine.clearForeign).onEngine m (Engine.driveStart a d))
      | none => .fault .blocksDisagree
    else .next (s.onEngine m Engine.clearForeign)
  else .next s

end Sys2Proof.Machine
end

