-- ==== Sys2Proof/Machine/Expiries.lean ====
section
/-! DEFINITION. The expiries of the abandon timer (R19), the wait timers (R60, R61) and the lease timers (R123). -/

namespace Sys2Proof.Machine

/-- The notice of an abandon expiry: the snapshot's entry and segment, absent without a snapshot (R19). -/
def State.postAbandoned (s : State) (p : Port) (t : Option Transfer) : State :=
  s.post p .messageAbandoned (t.bind (fun t => t.snap.entry.map Prod.fst)) (t.map (fun t => t.snap.seg)) 0#8

/-- ABANDON_EXPIRY (R19). -/
def execAbandonExpiry (p : Port) (s : State) : Result :=
  if !s.ports[p].abandon.isRunning then .refused .timerNotRunning
  else
    match s.ports[p].ctx with
    | .relayWrite t => .next ((s.endRelay t.snap.seg p).postAbandoned p (some t))
    | .relayRead t => .next ((s.endRelay t.snap.seg p).postAbandoned p (some t))
    | .broken t => .next ((s.onPort p (HostPort.toIdle false)).postAbandoned p (some t))
    | .commandIn =>
      .next (((s.onPort p (HostPort.toIdle false)).onBuffer p (fun _ => FrameBuffer.reset)).postAbandoned p none)
    | .responseOut .. => .next ((s.onPort p (HostPort.toIdle false)).postAbandoned p none)
    | .idle => .fault .blocksDisagree
    | .waiting _ => .fault .blocksDisagree
    | .addressing _ => .fault .blocksDisagree

/-- The wait of port `p`, in WAITING with transfer `t`, expires: it leaves the queue and is refused (R60). -/
def State.expireQueued (s : State) (p : Port) (t : Transfer) : State :=
  (s.leaveQueue t.snap.seg p).refuseWaiter t.snap.seg .waitExpired p

/-- The wait of port `p`, in ADDRESSING with transfer `t`, expires: the resume port leaves its recovery; the holder's segment
is released (R61). -/
def State.expireAddressing (s : State) (p : Port) (t : Transfer) : State :=
  match s.segs[t.snap.seg].state with
  | .recovering _ => (s.setSegState t.snap.seg (.recovering none)).refuseWaiter t.snap.seg .waitExpired p
  | _ => (s.refuse p .waitExpired t).release t.snap.seg p

/-- WAIT_EXPIRY (R60, R61). -/
def execWaitExpiry (p : Port) (s : State) : Result :=
  match s.ports[p].ctx with
  | .waiting t =>
    if s.segs[t.snap.seg].waits[p].isRunning then .next (s.expireQueued p t) else .refused .timerNotRunning
  | .addressing t =>
    if s.segs[t.snap.seg].waits[p].isRunning then .next (s.expireAddressing p t) else .refused .timerNotRunning
  | _ => .refused .timerNotRunning

/-- The HELD record `x` expires: it is freed, LEASE_EXPIRED is posted to its port with its token, and the oldest PENDING
record of the entry is promoted (R123). -/
def State.expireLease (s : State) (x : Slot × Lease) : State :=
  ((s.freeRecord x).post x.2.port .leaseExpired (some x.2.entry) (s.segOf x.2.entry) x.2.token).promote x.2.entry

/-- LEASE_EXPIRY (R123). -/
def execLeaseExpiry (e : EntryIx) (s : State) : Result :=
  match s.heldOn e with
  | some x => .next (s.expireLease x)
  | none => .refused .noLeaseHeld

end Sys2Proof.Machine
end

