-- ==== Sys2Proof/Machine/Rows.lean ====
section
/-! DEFINITION. DEVICE_RESET, and the rows of the table that are commands: each is the taking, on a port that the end of its
write transfer has just left IDLE (R7), of a frame that passes the code and length steps. -/

namespace Sys2Proof.Machine

/-- DEVICE_RESET (R1, R2, R22, R27, R40, R55, R71, R73, R74, R132, R133, R141, R142, R146, R148): every block takes its
reset values, with the straps as sampled. The commands that wait are not the part's and stay. -/
def execDeviceReset (adr admSel : BitVec 2) (s : State) : Result :=
  .next { State.resetWith adr admSel with pending := s.pending }

/-- A frame that spells `c` is taken on port `p` (R7, R143 to R145). -/
def State.commandRow (s : State) (p : Port) (c : Command) : Result :=
  if s.ports[p].ctx = .idle then .next (s.runCommand p c) else .refused .noFrameTaken

/-- INSR (R28 to R31). -/
def execInsr (p : Port) (index visibleBase span segment targetBase visMask wpMask mode : Byte) (maxLease : Half)
    (s : State) : Result :=
  s.commandRow p (.insr index visibleBase span segment targetBase visMask wpMask mode maxLease)
/-- DELR (R32, R126). -/
def execDelr (p : Port) (index : Byte) (s : State) : Result := s.commandRow p (.delr index)
/-- MODR (R33, R34, R127, R128). -/
def execModr (p : Port) (index visMask wpMask mode : Byte) (maxLease : Half) (s : State) : Result :=
  s.commandRow p (.modr index visMask wpMask mode maxLease)
/-- RDRT (R35). -/
def execRdrt (p : Port) (index : Byte) (s : State) : Result := s.commandRow p (.rdrt index)
/-- DFLT (R36). -/
def execDflt (p : Port) (port segment : Byte) (s : State) : Result := s.commandRow p (.dflt port segment)
/-- LACQ (R117, R118). -/
def execLacq (p : Port) (index : Byte) (duration : Half) (wait : Byte) (s : State) : Result :=
  s.commandRow p (.lacq index duration wait)
/-- LREN (R119). -/
def execLren (p : Port) (index token : Byte) (duration : Half) (s : State) : Result :=
  s.commandRow p (.lren index token duration)
/-- LREL with a non-zero token (R120). -/
def execLrel (p : Port) (index token : Byte) (s : State) : Result := s.commandRow p (.lrel index token)
/-- LREL with token 0 (R121). -/
def execLrelCancel (p : Port) (index : Byte) (s : State) : Result := s.commandRow p (.lrel index 0#8)
/-- LREV (R125). -/
def execLrev (p : Port) (index : Byte) (s : State) : Result := s.commandRow p (.lrev index)
/-- LQRY (R130). -/
def execLqry (p : Port) (index : Byte) (s : State) : Result := s.commandRow p (.lqry index)
/-- SCFG (R69, R70). -/
def execScfg (p : Port) (segment enable shared waitLimit holdLimit : Byte) (s : State) : Result :=
  s.commandRow p (.scfg segment enable shared waitLimit holdLimit)
/-- SSTA (R72). -/
def execSsta (p : Port) (segment : Byte) (s : State) : Result := s.commandRow p (.ssta segment)
/-- SRCV (R110). -/
def execSrcv (p : Port) (segment : Byte) (s : State) : Result := s.commandRow p (.srcv segment)
/-- NFET (R138). -/
def execNfet (p : Port) (s : State) : Result := s.commandRow p .nfet
/-- PSTA (R155). -/
def execPsta (p : Port) (port : Byte) (s : State) : Result := s.commandRow p (.psta port)
/-- RGHT (R150). -/
def execRght (p : Port) (port rights quota : Byte) (s : State) : Result := s.commandRow p (.rght port rights quota)
/-- PRST (R152, R153). -/
def execPrst (p : Port) (port : Byte) (s : State) : Result := s.commandRow p (.prst port)
/-- IDNT (R156). -/
def execIdnt (p : Port) (s : State) : Result := s.commandRow p .idnt

/-- BAD_COMMAND (R144 step 1): the taken frame's first byte is no command code. -/
def execBadCommand (p : Port) (code : Byte) (s : State) : Result :=
  if (opOfCode code).isSome then .refused .codeIsACommand
  else if s.ports[p].ctx = .idle then .next (s.respond p .badCommand code []) else .refused .noFrameTaken

end Sys2Proof.Machine
end

