-- ==== Sys2Proof/Machine/Clock.lean ====
section
/-! DEFINITION. Time: one tick of every running timer, and the timers that are due. The table has no row for the passage of
time; the step takes these on an empty queue (log entry 3). -/

namespace Sys2Proof.Machine

/-- A HELD record's remaining time counts down by one tick (R115). -/
def Lease.tick (l : Lease) : Lease :=
  match l.status with
  | .held t n => { l with status := .held t (n - 1) }
  | .pending _ => l

/-- The HELD record's remaining time reaches 0 within the coming tick (R115, R123). -/
def Lease.due (l : Lease) : Bool :=
  match l.status with
  | .held _ n => n ≤ 1
  | .pending _ => false

/-- One tick passes: every running abandon, wait and hold timer counts up and every lease timer down. -/
def State.tick (s : State) : State :=
  { s with
    ports := tabMap s.ports (fun h => { h with abandon := h.abandon.tick })
    segs := tabMap s.segs (fun a => { a with waits := tabMap a.waits Timer.tick })
    engines := tabMap s.engines (fun e => { e with hold := e.hold.tick })
    leases := tabMap s.leases (Option.map Lease.tick) }

/-- Port `p`'s wait timer is due at the segment its transfer names. -/
def State.waitDue (s : State) (p : Port) : Bool :=
  match s.ports[p].ctx with
  | .waiting t => s.segs[t.snap.seg].waits[p].due
  | .addressing t => s.segs[t.snap.seg].waits[p].due
  | _ => false

/-- The lease of slot `i` that is due, by the entry it names. -/
def State.leaseDue (s : State) (i : Slot) : Option EntryIx :=
  match s.leases[i] with
  | some l => if l.due then some l.entry else none
  | none => none

/-- The expiries that are due, in the order the model takes them: leases by slot, waits by port, holds by segment, abandons
by port. DESIGN CHOICE, unsafe (log entry 3): the spec lets expiries that fall together be taken in either order. -/
def State.dueExpiries (s : State) : List Instr :=
  allSlots.filterMap (fun i => (s.leaseDue i).map Instr.leaseExpiry) ++
    (allPorts.filter s.waitDue).map Instr.waitExpiry ++
    ((List.finRange 8).filter (fun m => s.engines[m].hold.due)).map Instr.holdTimerExpiry ++
    (allPorts.filter (fun p => s.ports[p].abandon.due)).map Instr.abandonExpiry

end Sys2Proof.Machine
end

