-- ==== Sys2Proof/Machine/Dispatch.lean ====
section
/-! DEFINITION. The dispatch: one arm for each row of the table, each one direct call of the row's meaning. -/

namespace Sys2Proof.Machine

def exec (i : Instr) (s : State) : Host.Outcome State Fault Refusal :=
  match i with
  | .deviceReset adr admSel => Sys2Proof.Machine.execDeviceReset adr admSel s
  | .start p => Sys2Proof.Machine.execStart p s
  | .repeatedStart p => Sys2Proof.Machine.execRepeatedStart p s
  | .addressByte p a d => Sys2Proof.Machine.execAddressByte p a d s
  | .dataByte p b => Sys2Proof.Machine.execDataByte p b s
  | .hostAcknowledge p => Sys2Proof.Machine.execHostAcknowledge p s
  | .hostNotAcknowledge p => Sys2Proof.Machine.execHostNotAcknowledge p s
  | .stop p => Sys2Proof.Machine.execStop p s
  | .abandonExpiry p => Sys2Proof.Machine.execAbandonExpiry p s
  | .waitExpiry p => Sys2Proof.Machine.execWaitExpiry p s
  | .lineCheckPassed m => Sys2Proof.Machine.execLineCheckPassed m s
  | .targetAcknowledgesAddress m => Sys2Proof.Machine.execTargetAcknowledgesAddress m s
  | .targetNack m => Sys2Proof.Machine.execTargetNack m s
  | .writeByteAnswered m acked => Sys2Proof.Machine.execWriteByteAnswered m acked s
  | .readByteFetched m b => Sys2Proof.Machine.execReadByteFetched m b s
  | .closingByteFinished m acked => Sys2Proof.Machine.execClosingByteFinished m acked s
  | .stopComplete m => Sys2Proof.Machine.execStopComplete m s
  | .holdTimerExpiry m => Sys2Proof.Machine.execHoldTimerExpiry m s
  | .recoveryPulse m dataHigh => Sys2Proof.Machine.execRecoveryPulse m dataHigh s
  | .recoverySucceeded m => Sys2Proof.Machine.execRecoverySucceeded m s
  | .foreignStart m => Sys2Proof.Machine.execForeignStart m s
  | .foreignStop m linesHigh => Sys2Proof.Machine.execForeignStop m linesHigh s
  | .arbitrationLoss m => Sys2Proof.Machine.execArbitrationLoss m s
  | .leaseExpiry e => Sys2Proof.Machine.execLeaseExpiry e s
  | .insr p index visibleBase span segment targetBase visMask wpMask mode maxLease => Sys2Proof.Machine.execInsr p index visibleBase span segment targetBase visMask wpMask mode maxLease s
  | .delr p index => Sys2Proof.Machine.execDelr p index s
  | .modr p index visMask wpMask mode maxLease => Sys2Proof.Machine.execModr p index visMask wpMask mode maxLease s
  | .rdrt p index => Sys2Proof.Machine.execRdrt p index s
  | .dflt p port segment => Sys2Proof.Machine.execDflt p port segment s
  | .lacq p index duration wait => Sys2Proof.Machine.execLacq p index duration wait s
  | .lren p index token duration => Sys2Proof.Machine.execLren p index token duration s
  | .lrel p index token => Sys2Proof.Machine.execLrel p index token s
  | .lrelCancel p index => Sys2Proof.Machine.execLrelCancel p index s
  | .lrev p index => Sys2Proof.Machine.execLrev p index s
  | .lqry p index => Sys2Proof.Machine.execLqry p index s
  | .scfg p segment enable shared waitLimit holdLimit => Sys2Proof.Machine.execScfg p segment enable shared waitLimit holdLimit s
  | .ssta p segment => Sys2Proof.Machine.execSsta p segment s
  | .srcv p segment => Sys2Proof.Machine.execSrcv p segment s
  | .nfet p => Sys2Proof.Machine.execNfet p s
  | .psta p port => Sys2Proof.Machine.execPsta p port s
  | .rght p port rights quota => Sys2Proof.Machine.execRght p port rights quota s
  | .prst p port => Sys2Proof.Machine.execPrst p port s
  | .idnt p => Sys2Proof.Machine.execIdnt p s
  | .badCommand p code => Sys2Proof.Machine.execBadCommand p code s
  | .lineHeld m line => Sys2Proof.Machine.execLineHeld m line s
  | .lineReleased m line => Sys2Proof.Machine.execLineReleased m line s

end Sys2Proof.Machine
end

