-- ==== Sys2Proof/Machine/Idle.lean ====
section
/-! DEFINITION. What the part does when no command waits: an expiry that is due is taken, otherwise one tick passes. -/

namespace Sys2Proof.Machine

/-- The step on an empty queue: the first expiry that is due is taken (R19, R59, R94, R115, "A limit of n ms expires when n ms
have passed since its timer started"); when none is due, one tick passes. DESIGN CHOICE (log entry 3). -/
def idle (s : State) : Result :=
  match s.dueExpiries with
  | i :: _ => exec i s
  | [] => .next s.tick

end Sys2Proof.Machine
end

