-- ==== Sys2Proof/WellFormed.lean ====
section
/-! DEFINITION. Well-formed commands. The operands' types already bound ports, segments, entries, addresses and bytes; what is
left are the two rows whose own words narrow an operand. -/

namespace Sys2Proof

/-- A well-formed term of a row: LREL's token is not 0 (R120; a frame with token 0 is the row LREL_CANCEL), and the byte of
BAD_COMMAND is no command code (R144). Every other operand value is one the row can carry. -/
def Instr.wf : Instr → Bool
  | .lrel _ _ token => token ≠ 0#8
  | .badCommand _ code => (Machine.opOfCode code).isNone
  | _ => true

end Sys2Proof
end

