-- ==== Sys2Proof/Safety.lean ====
section
/-! DEFINITION. What a safe run is, and the laws the spec states of every state between events: one predicate for each law,
each a plain statement about the state. -/

namespace Sys2Proof.Machine

/-- The outcome is a next state. -/
def Completes (r : Result) : Prop := ∃ t, r = .next t

/-- The law `Inv` is kept by every step: by every command at the front of the queue and by every idle step. -/
def KeptByStep (Inv : State → Prop) : Prop := ∀ s t : State, Inv s → step s = .next t → Inv t

/-- A run of `k` steps from `s` never faults: the safe runs (log entry 6). -/
def SafeRun (k : Nat) (s : State) : Prop := ∀ f, core.run k s ≠ .fault f

/-! ### What an event leaves alone -/

/-- No port but `p` is touched. -/
def OtherPortsSame (p : Port) (s t : State) : Prop := ∀ q : Port, q ≠ p → t.ports[q] = s.ports[q]

/-- No segment but `m` is touched, neither its arbiter nor its engine. -/
def OtherSegmentsSame (m : Seg) (s t : State) : Prop :=
  ∀ k : Seg, k ≠ m → t.segs[k] = s.segs[k] ∧ t.engines[k] = s.engines[k]

/-- No arbiter and no engine is touched. -/
def SegmentsSame (s t : State) : Prop := t.segs = s.segs ∧ t.engines = s.engines

/-- No response record but that of port `p` is touched. -/
def OtherResponsesSame (p : Port) (s t : State) : Prop := ∀ q : Port, q ≠ p → t.responses[q] = s.responses[q]

/-- The state that only commands and device reset change is untouched: directory, defaults, rights, straps; and the commands
that wait. -/
def SettingsSame (s t : State) : Prop :=
  t.directory = s.directory ∧ t.defaults = s.defaults ∧ t.rights = s.rights ∧ t.adr = s.adr ∧ t.admSel = s.admSel ∧
    t.pending = s.pending

/-- The Lease Table is untouched. -/
def LeasesSame (s t : State) : Prop := t.leases = s.leases ∧ t.tokenCounter = s.tokenCounter

/-- The Command Unit's buffers and responses are untouched. -/
def FramesSame (s t : State) : Prop := t.buffers = s.buffers ∧ t.responses = s.responses

/-! ### The table's rows for commands -/

/-- The row of the table that the command `c`, taken on port `p`, is; LREL is two rows by its token (R120, R121). -/
def Command.row (p : Port) : Command → Instr
  | .insr a b c d e f g h i => .insr p a b c d e f g h i
  | .delr a => .delr p a
  | .modr a b c d e => .modr p a b c d e
  | .rdrt a => .rdrt p a
  | .dflt a b => .dflt p a b
  | .lacq a b c => .lacq p a b c
  | .lren a b c => .lren p a b c
  | .lrel a b => if b = 0#8 then .lrelCancel p a else .lrel p a b
  | .lrev a => .lrev p a
  | .lqry a => .lqry p a
  | .scfg a b c d e => .scfg p a b c d e
  | .ssta a => .ssta p a
  | .srcv a => .srcv p a
  | .nfet => .nfet p
  | .psta a => .psta p a
  | .rght a b c => .rght p a b c
  | .prst a => .prst p a
  | .idnt => .idnt p

/-- R149's table: the caller on port `p` with the rights `r` may issue the command. -/
def Permitted (r : Rights) (p : Port) : Command → Prop
  | .insr .. => r.route = true
  | .delr .. => r.route = true
  | .modr .. => r.route = true
  | .dflt .. => r.route = true
  | .lacq .. => r.lease = true
  | .lren .. => r.lease = true
  | .lrel .. => r.lease = true
  | .scfg .. => r.segment = true
  | .srcv .. => r.segment = true
  | .rght .. => r.admin = true
  | .lrev .. => r.admin = true
  | .prst b => b.toNat = p.val ∨ r.admin = true
  | .rdrt .. => True
  | .lqry .. => True
  | .ssta .. => True
  | .psta .. => True
  | .nfet => True
  | .idnt => True

/-- The masks of an INSR or MODR are refused: the visibility mask is empty or names a port above 3, or the write-protect mask
names a port outside it (R28, R33, R158). -/
def MasksRefused (vis wp : Byte) : Prop := vis = 0#8 ∨ 15 < vis.toNat ∨ wp &&& ~~~vis ≠ 0#8

/-- What the arguments step of each command refuses with BAD_ARGUMENT (R28, R32, R33, R35, R36, R69, R72, R110, R117, R119 to
R121, R125, R130, R150, R152, R155, R158). -/
def ArgumentsRefused : Command → Prop
  | .insr index vbase span seg tbase vis wp mode maxLease =>
    47 < index.toNat ∨ span.toNat ∉ [1, 2, 4, 8] ∨ 7 < seg.toNat ∨
      0x7F < vbase.toNat ∨ 0x7F < tbase.toNat ∨ ¬ span.toNat ∣ vbase.toNat ∨ ¬ span.toNat ∣ tbase.toNat ∨
      MasksRefused vis wp ∨ 1 < mode.toNat ∨ maxLease.toNat = 0
  | .delr index => 47 < index.toNat
  | .modr index vis wp mode maxLease =>
    47 < index.toNat ∨ MasksRefused vis wp ∨ 1 < mode.toNat ∨ maxLease.toNat = 0
  | .rdrt index => 47 < index.toNat
  | .dflt port seg => 3 < port.toNat ∨ 7 < seg.toNat ∧ seg ≠ 0xFF#8
  | .lacq index duration wait => 47 < index.toNat ∨ duration.toNat = 0 ∨ 1 < wait.toNat
  | .lren index _ duration => 47 < index.toNat ∨ duration.toNat = 0
  | .lrel index _ => 47 < index.toNat
  | .lrev index => 47 < index.toNat
  | .lqry index => 47 < index.toNat
  | .scfg seg enable shared wait hold =>
    7 < seg.toNat ∨ 1 < enable.toNat ∨ 1 < shared.toNat ∨ wait.toNat = 0 ∨ hold.toNat < 5 ∨ 100 < hold.toNat
  | .ssta seg => 7 < seg.toNat
  | .srcv seg => 7 < seg.toNat
  | .nfet => False
  | .psta port => 3 < port.toNat
  | .rght port rights quota => 3 < port.toNat ∨ 15 < rights.toNat ∨ 16 < quota.toNat
  | .prst port => 3 < port.toNat
  | .idnt => False

/-- A frame that spells `c` can be taken on port `p`, and it passes the rights step (R7, R149). -/
def MayCommand (s : State) (p : Port) (c : Command) : Prop :=
  s.ports[p].ctx = .idle ∧ Permitted s.rights[p].rights p c

/-! ### States that statements name -/

/-- The abandon timer just started: 100 ms, none of them passed (R18, R19). -/
def freshAbandon : Timer := .running (100 * Config.ticksPerMs) 0

/-- The state `s` with a recovery begun on `m`: what the arbiter and the engine set, `resume` being the resume port and
`broken` the port broken by the break before it (R64, R104). -/
def State.inRecovery (s : State) (m : Seg) (resume broken : Option Port) : State :=
  (s.onSeg m (fun a => { a with state := .recovering resume, recoveryCount := min 65535 (a.recoveryCount + 1) })).onEngine m
    (fun e => { e with state := .recovering, served := none, target := none, activity := .none, closing := false,
                       discarding := false, hold := .stopped, busOwned := true, brokenPort := broken, pulses := 0,
                       recStep := .look, bus := [] })

/-- The refusal record and count of a port after a refusal of the transfer `t` with `r` (R20). -/
def HostPort.refusedWith (r : Reason) (t : Transfer) (h : HostPort) : HostPort :=
  { h with lastRefusal := some { reason := r, vaddr := t.vaddr, dir := t.dir, entry := t.snap.entry.map Prod.fst },
           refusalCount := min 255 (h.refusalCount + 1) }

/-- The port IDLE and passive after a refusal of the transfer `t` with `r` at its address byte: the address not acknowledged,
the clock released, the refusal recorded (R9 to R11, R20). -/
def HostPort.turnedAway (r : Reason) (t : Transfer) (h : HostPort) : HostPort :=
  { h with ctx := .idle, addrExpected := false, byteInHand := false, readClosed := false, abandon := .stopped,
           clockHeld := false, upstream := [],
           lastRefusal := some { reason := r, vaddr := t.vaddr, dir := t.dir, entry := t.snap.entry.map Prod.fst },
           refusalCount := min 255 (h.refusalCount + 1) }

/-- The port IDLE with address expected `exp`, holding nothing and driving nothing (R3). -/
def HostPort.atRest (exp : Bool) (h : HostPort) : HostPort :=
  { h with ctx := .idle, addrExpected := exp, byteInHand := false, readClosed := false, abandon := .stopped,
           clockHeld := false, upstream := [] }

/-- The port that holds its clock for the address byte of an admitted transfer (R9, R12). -/
def HostPort.stretching (c : Ctx) (h : HostPort) : HostPort :=
  { h with ctx := c, addrExpected := false, byteInHand := false, readClosed := false, abandon := .stopped,
           clockHeld := true, upstream := [] }

/-- The port broken out of the transfer `t` (R16): a write byte in hand is refused with BROKEN, a read byte in hand is left
undriven; the abandon timer starts if the clock was held, and runs on otherwise. -/
def HostPort.brokenOff (t : Transfer) (h : HostPort) : HostPort :=
  { h with ctx := .broken t, byteInHand := false, clockHeld := false, upstream := [],
           abandon := if h.clockHeld then freshAbandon else h.abandon,
           lastRefusal :=
             if t.dir = .write ∧ h.byteInHand = true then
               some { reason := .broken, vaddr := t.vaddr, dir := t.dir, entry := t.snap.entry.map Prod.fst }
             else h.lastRefusal,
           refusalCount := if t.dir = .write ∧ h.byteInHand = true then min 255 (h.refusalCount + 1) else h.refusalCount }

/-- The state after the holder `h` of `m` is broken out of `t` with `cause`, before the segment's part (R102 steps 2, 3). -/
def State.afterBreak (s : State) (m : Seg) (h : Port) (t : Transfer) (cause : BreakCause) : State :=
  (s.onPort h (HostPort.brokenOff t)).onNotices h
    (NoticeQueue.store (.messageBroken cause) (t.snap.entry.map Prod.fst) (some m) 0#8)

/-! ### Notices and rights -/

/-- R135, R137 for one queue: at most 8 records, the alert line asserted exactly when there is one, notices lost only while
the queue is full, and sequence numbers that run on without gaps up to the counter. -/
def NoticeQueue.Lawful (q : NoticeQueue) : Prop :=
  q.records.length ≤ 8 ∧ (q.alert = true ↔ q.records ≠ []) ∧ (q.lost ≠ 0 → q.records.length = 8) ∧ q.lost ≤ 255 ∧
    q.records.map Notice.seq = (List.range q.records.length).map (fun i => q.seq - BitVec.ofNat 8 (q.records.length - 1 - i))

/-- Every Notice Queue is lawful (R135, R137). -/
def NoticesLaw (s : State) : Prop := ∀ p : Port, s.notices[p].Lawful

/-- At least one host port holds the ADMIN right, and every quota is at most 16 (R148). -/
def RightsLaw (s : State) : Prop := (∃ p : Port, s.rights[p].rights.admin = true) ∧ ∀ p : Port, s.rights[p].quota ≤ 16

/-! ### The directory (R22, R26) -/

/-- What R22 and R26 say of one INSTALLED entry: aligned bases, a non-empty visibility mask that contains the write-protect
mask, a max lease of 1 to 65,535 ms, and ranges free of reserved addresses and, for the visible range, of the own address. -/
def Route.Lawful (own : Addr) (r : Route) : Prop :=
  aligned r.vbase r.span = true ∧ aligned r.tbase r.span = true ∧ masksOk r.vis r.wp = true ∧
    1 ≤ r.maxLease ∧ r.maxLease ≤ 65535 ∧
    (∀ a, inRange r.vbase r.span a = true → reservedAddr a = false ∧ a ≠ own) ∧
    (∀ a, inRange r.tbase r.span a = true → reservedAddr a = false)

/-- R26: every INSTALLED entry is lawful, no two of them visible to a common port have intersecting visible ranges, and no
two on one segment have intersecting target ranges. -/
def DirectoryLaw (s : State) : Prop :=
  (∀ (e : EntryIx) (r : Route), s.route e = some r → r.Lawful s.ownAddr) ∧
  (∀ (e f : EntryIx) (r o : Route), s.route e = some r → s.route f = some o → e ≠ f →
    visibleConflict r o = false ∧ targetConflict r o = false)

/-! ### Leases (R112 to R115) -/

/-- R114 and R115: the token counter is never 0, the tokens of HELD records are non-zero and pairwise distinct, and a live
lease has time left. -/
def TokenLaw (s : State) : Prop :=
  s.tokenCounter ≠ 0#8 ∧
  (∀ (i : Slot) (l : Lease), s.leases[i] = some l → l.isHeld = true → l.token ≠ 0#8) ∧
  (∀ (i j : Slot) (l k : Lease), s.leases[i] = some l → s.leases[j] = some k → l.isHeld = true → k.isHeld = true →
    l.token = k.token → i = j)

/-- R113: one HELD record an entry, one record a port and entry, PENDING records only behind another port's HELD record and
in the places 1, 2, 3 without a gap, and every record naming an INSTALLED entry of its generation that its port sees. -/
def LeaseLaw (s : State) : Prop :=
  (∀ (i j : Slot) (l k : Lease), s.leases[i] = some l → s.leases[j] = some k → l.entry = k.entry →
    (l.isHeld = true ∧ k.isHeld = true ∨ l.port = k.port ∨ l.isHeld = false ∧ k.isHeld = false ∧ l.order = k.order) → i = j) ∧
  (∀ (i : Slot) (l : Lease), s.leases[i] = some l → l.isHeld = false →
    1 ≤ l.order ∧ l.order ≤ 3 ∧
    (∃ (j : Slot) (k : Lease), s.leases[j] = some k ∧ k.entry = l.entry ∧ k.isHeld = true) ∧
    (l.order ≠ 1 → ∃ (j : Slot) (k : Lease), s.leases[j] = some k ∧ k.entry = l.entry ∧ k.isHeld = false ∧
      k.order + 1 = l.order)) ∧
  (∀ (i : Slot) (l : Lease), s.leases[i] = some l →
    s.directory[l.entry].gen = l.gen ∧ ∃ r, s.route l.entry = some r ∧ hasPort r.vis l.port = true)

/-- R112 and R115: requested durations lie in 1 to 65,535 ms, and a live lease never reads 0 nor more than 65,535 ms. -/
def RemainingLaw (s : State) : Prop :=
  ∀ (i : Slot) (l : Lease), s.leases[i] = some l →
    1 ≤ l.requested ∧ l.requested ≤ 65535 ∧
    (l.isHeld = true → 1 ≤ l.remaining ∧ l.remaining ≤ 65535 * Config.ticksPerMs)

/-! ### Ports (R1, R12, R18, R142) -/

/-- The clock of a port is held exactly in WAITING, in ADDRESSING, and while a relayed byte is in hand (R12). -/
def Ctx.holdsClock : Ctx → Bool
  | .waiting _ => true
  | .addressing _ => true
  | _ => false

/-- The five states in which the part may wait for the host with the abandon timer running (R18). -/
def Ctx.timed : Ctx → Bool
  | .relayWrite _ => true
  | .relayRead _ => true
  | .broken _ => true
  | .commandIn => true
  | .responseOut .. => true
  | _ => false

/-- The states in which an address byte may be due (R3, R13 to R17). -/
def Ctx.mayExpectAddress : Ctx → Bool
  | .idle => true
  | .relayWrite _ => true
  | .relayRead _ => true
  | .broken _ => true
  | _ => false

/-- R12 and R18 for one port. -/
def HostPort.Lawful (h : HostPort) : Prop :=
  h.clockHeld = (h.ctx.holdsClock || h.byteInHand) ∧
  (h.byteInHand = true → h.ctx.isRelay = true ∧ h.addrExpected = false) ∧
  h.abandon.isRunning = (h.ctx.timed && !h.clockHeld) ∧
  (h.addrExpected = true → h.ctx.mayExpectAddress = true) ∧
  h.refusalCount ≤ 255

/-- Every port keeps R12 and R18. -/
def PortLaw (s : State) : Prop := ∀ p : Port, s.ports[p].Lawful

/-- R142: a frame buffer holds at most 24 bytes, is marked overlong only when full, and is empty outside COMMAND_IN. -/
def BufferLaw (s : State) : Prop :=
  ∀ p : Port, s.buffers[p].bytes.length ≤ 24 ∧ (s.buffers[p].overlong = true → s.buffers[p].bytes.length = 24) ∧
    (s.ports[p].ctx ≠ .commandIn → s.buffers[p] = FrameBuffer.reset)

/-- R146: a response payload has at most 20 bytes. -/
def ResponseLaw (s : State) : Prop := ∀ p : Port, s.responses[p].payload.length ≤ 20

/-! ### Segments and engines (R56, R57, R75) -/

/-- The segment whose arbiter names the port: as queued in WAITING, as holder or resume port otherwise. -/
def Ctx.seatedAt (c : Ctx) (m : Seg) : Bool :=
  match c with
  | .waiting t => t.snap.seg = m
  | .addressing t => t.snap.seg = m
  | .relayWrite t => t.snap.seg = m
  | .relayRead t => t.snap.seg = m
  | _ => false

/-- The port is in WAITING for segment `m`. -/
def Ctx.waitsAt (c : Ctx) (m : Seg) : Bool :=
  match c with
  | .waiting t => t.snap.seg = m
  | _ => false

/-- The port is in ADDRESSING on segment `m`. -/
def Ctx.addressesAt (c : Ctx) (m : Seg) : Bool :=
  match c with
  | .addressing t => t.snap.seg = m
  | _ => false

/-- The port is in RELAY_WRITE or RELAY_READ on segment `m`. -/
def Ctx.relaysAt (c : Ctx) (m : Seg) : Bool :=
  match c with
  | .relayWrite t => t.snap.seg = m
  | .relayRead t => t.snap.seg = m
  | _ => false

/-- R56 and R57 for segment `m`: who is queued, who holds it, who resumes. -/
def SegLawful (s : State) (m : Seg) : Prop :=
  let a := s.segs[m]
  (∀ p : Port, p ∈ a.queue ↔ s.ports[p].ctx.waitsAt m = true) ∧
  a.queue.Nodup ∧ a.queue.length ≤ 3 ∧
  (∀ p : Port, s.ports[p].ctx.relaysAt m = true → a.state = .active p) ∧
  (∀ p : Port, s.ports[p].ctx.addressesAt m = true → a.state = .active p ∨ a.state = .recovering (some p)) ∧
  (∀ p : Port, a.state = .active p → s.ports[p].ctx.relaysAt m = true ∨ s.ports[p].ctx.addressesAt m = true) ∧
  (∀ p : Port, a.state = .recovering (some p) → s.ports[p].ctx.addressesAt m = true) ∧
  (a.state = .idle ∨ a.state = .disabled ∨ a.state = .fault → a.queue = [] ∧ a.disablePending = false) ∧
  (a.state = .disabled → a.enable = false) ∧
  (a.state ≠ .disabled → a.disablePending = !a.enable) ∧
  (∀ p : Port, a.waits[p].isRunning = (s.ports[p].ctx.waitsAt m || s.ports[p].ctx.addressesAt m)) ∧
  1 ≤ a.waitLimit ∧ a.waitLimit ≤ 255 ∧ 5 ≤ a.holdLimit ∧ a.holdLimit ≤ 100 ∧ a.lossCount ≤ 65535 ∧ a.recoveryCount ≤ 65535

/-- R56 and R57. -/
def SegmentLaw (s : State) : Prop := ∀ m : Seg, SegLawful s m

/-- The engine of `m` serves the holder, which is in ADDRESSING. -/
def ServesAddressing (s : State) (m : Seg) : Prop :=
  ∃ p : Port, s.engines[m].served = some p ∧ s.segs[m].state = .active p ∧ s.ports[p].ctx.addressesAt m = true

/-- The engine of `m` serves nobody, and the segment has no holder. -/
def ServesNobody (s : State) (m : Seg) : Prop :=
  s.engines[m].served = none ∧ (s.segs[m].state = .idle ∨ s.segs[m].state = .disabled)

/-- R105: the pulse count at each step of a recovery: none yet at the look, fewer than 9 where a further pulse is to be driven, at
most 9 ever. -/
def Engine.PulsesLawful (e : Engine) : Prop :=
  match e.recStep with
  | .look => e.pulses = 0
  | .pulse => e.pulses < 9
  | .pulsing => 1 ≤ e.pulses ∧ e.pulses ≤ 9
  | .stop => e.pulses ≤ 9

/-- R94, R105: the clock is timed only where the engine needs it high, and the data line only in STARTING and at a stop; a pulse
still to be driven has no line timed. -/
def Engine.HoldLawful (e : Engine) : Prop :=
  (e.hold.clock.isRunning = true → e.watches .clock = true) ∧
  (e.hold.data.isRunning = true → e.state = .starting ∨ e.state = .stopping ∨ e.state = .recovering ∧ e.recStep = .stop) ∧
  (e.state = .recovering → e.recStep = .pulse → e.hold = .stopped)

/-- R75 for an engine that is finishing or closing nothing, by its state. -/
def EngineRow (s : State) (m : Seg) : Prop :=
  let e := s.engines[m]
  match e.state with
  | .quiet =>
    e.served = none ∧ e.target = none ∧ e.busOwned = false ∧ e.activity = .none ∧
      (s.segs[m].state = .idle ∨ s.segs[m].state = .disabled ∨ s.segs[m].state = .fault)
  | .starting => ServesAddressing s m ∧ e.activity = .none ∧ e.target = e.served.bind s.targetOf
  | .address =>
    ServesAddressing s m ∧ e.activity = .clocking ∧ e.busOwned = true ∧ e.target = e.served.bind s.targetOf
  | .writing =>
    e.busOwned = true ∧ e.activity ≠ .slotOpen ∧
      ∃ p t, e.served = some p ∧ s.ports[p].ctx = .relayWrite t ∧ t.snap.seg = m ∧
        (e.activity = .clocking ↔ s.ports[p].byteInHand = true)
  | .reading =>
    e.busOwned = true ∧
      ∃ p t, e.served = some p ∧ s.ports[p].ctx = .relayRead t ∧ t.snap.seg = m ∧
        (e.activity = .clocking ↔ s.ports[p].byteInHand = true) ∧
        (e.activity = .none ↔ s.ports[p].readClosed = true)
  | .stopping => (ServesAddressing s m ∨ ServesNobody s m) ∧ e.activity = .none ∧ e.busOwned = true
  | .recovering =>
    e.served = none ∧ e.target = none ∧ e.busOwned = true ∧ e.activity = .none ∧
      (∃ r, s.segs[m].state = .recovering r) ∧ e.PulsesLawful

/-- A start is still to be driven for the served port: in STARTING, or behind a closing or a stop (R76, R77). -/
def Engine.awaitsStart (e : Engine) : Bool :=
  e.state = .starting || (e.served.isSome && (e.isClosing || e.state = .stopping))

/-- R75 for segment `m`, with R94 for its hold timer and R99 for its retry count: at most 3 attempts, fewer while a start is
still to be driven. -/
def EngLawful (s : State) (m : Seg) : Prop :=
  let e := s.engines[m]
  (if e.isClosing then
    (ServesAddressing s m ∨ ServesNobody s m) ∧ e.activity = .clocking ∧ e.busOwned = true ∧
      (e.state = .address ∨ e.state = .writing ∨ e.state = .reading) ∧
      (e.discarding = true → e.closing = false ∧ e.state = .reading)
  else EngineRow s m) ∧
  ((∃ r, s.segs[m].state = .recovering r) → e.state = .recovering) ∧
  (s.segs[m].state = .fault → e.state = .quiet) ∧
  e.HoldLawful ∧
  e.retry ≤ 3 ∧ (e.awaitsStart = true → e.retry ≤ 2)

/-- R75. -/
def EngineLaw (s : State) : Prop := ∀ m : Seg, EngLawful s m

/-- The laws of the blocks that meet on the relay path, together: R12, R18, R56, R57, R75. -/
def RelayLaw (s : State) : Prop := PortLaw s ∧ SegmentLaw s ∧ EngineLaw s

end Sys2Proof.Machine
end

