-- ==== Sys2Proof/Certificates/Slice0/Obligations.lean ====
section
/-! DEFINITION. The statements about the model, one proposition each. A statement about a command or an event gives the
conditions on the state and the operands under which `exec` answers a next state, and that state: written as an update of
the state before, it says at once what changes and that nothing else does. -/

open Sys2Proof Sys2Proof.Machine

/-! ### The whole part -/

/-- The step takes the command at the front of the queue and runs it on the state with the queue's rest; on an empty queue it
takes the first expiry that is due, and lets one tick pass when none is. A tick moves every running abandon, wait and hold timer
up by one and the remaining time of every HELD lease down by one, and nothing else; an expiry is due exactly when its limit is
reached within the coming tick, so a timer started with a limit of n ms is due when n ms have passed. The empty queue's part is
the model's choice (log entries 2 and 3): the spec has no row for the passage of time. -/
def Obligations.StepTakesFrontCommand : Prop :=
  let later : Timer → Timer := fun x => match x with
    | .stopped => .stopped
    | .running limit n => .running limit (n + 1)
  let reached : Timer → Prop := fun x => ∃ limit n, x = .running limit n ∧ limit ≤ n + 1
  (∀ (i : Instr) (rest : List Instr) (s : State), step { s with pending := i :: rest } = exec i { s with pending := rest }) ∧
  (∀ s : State, s.pending = [] →
    step s = (match s.dueExpiries with
      | i :: _ => exec i s
      | [] => .next s.tick)) ∧
  (∀ s : State,
    (∀ p : Port, s.tick.ports[p] = { s.ports[p] with abandon := later s.ports[p].abandon }) ∧
    (∀ m : Seg, (∀ p : Port, s.tick.segs[m].waits[p] = later s.segs[m].waits[p]) ∧
      s.tick.segs[m] = { s.segs[m] with waits := s.tick.segs[m].waits } ∧
      s.tick.engines[m] = { s.engines[m] with
        hold := { clock := later s.engines[m].hold.clock, data := later s.engines[m].hold.data } }) ∧
    (∀ i : Slot, s.tick.leases[i] = (s.leases[i]).map (fun l => match l.status with
      | .held token n => { l with status := .held token (n - 1) }
      | .pending _ => l)) ∧
    s.tick = { s with ports := s.tick.ports, segs := s.tick.segs, engines := s.tick.engines, leases := s.tick.leases }) ∧
  (∀ s : State,
    (∀ p : Port, .abandonExpiry p ∈ s.dueExpiries ↔ reached s.ports[p].abandon) ∧
    (∀ p : Port, .waitExpiry p ∈ s.dueExpiries ↔
      ∃ t, (s.ports[p].ctx = .waiting t ∨ s.ports[p].ctx = .addressing t) ∧ reached s.segs[t.snap.seg].waits[p]) ∧
    (∀ m : Seg, .holdTimerExpiry m ∈ s.dueExpiries ↔ reached s.engines[m].hold.clock ∨ reached s.engines[m].hold.data) ∧
    (∀ e : EntryIx, .leaseExpiry e ∈ s.dueExpiries ↔
      ∃ (i : Slot) (l : Lease), s.leases[i] = some l ∧ l.entry = e ∧ ∃ token n, l.status = .held token n ∧ n ≤ 1) ∧
    (∀ i ∈ s.dueExpiries, (∃ p, i = .abandonExpiry p ∨ i = .waitExpiry p) ∨ (∃ m, i = .holdTimerExpiry m) ∨
      ∃ e, i = .leaseExpiry e)) ∧
  (∀ ms k : Nat, later^[k] (.running (ms * Config.ticksPerMs) 0) = .running (ms * Config.ticksPerMs) k ∧
    (reached (later^[k] (.running (ms * Config.ticksPerMs) 0)) ↔ ms * Config.ticksPerMs ≤ k + 1))

/-- Device reset leaves every law in force, whatever the straps read; `State.reset` is such a state (its straps are the
model's choice, log entry 1). -/
def Obligations.ResetMeetsEveryLaw : Prop :=
  (∀ adr admSel : BitVec 2,
    let s := State.resetWith adr admSel
    NoticesLaw s ∧ RightsLaw s ∧ DirectoryLaw s ∧ TokenLaw s ∧ LeaseLaw s ∧ RemainingLaw s ∧ BufferLaw s ∧ ResponseLaw s ∧
      RelayLaw s) ∧
  ∃ adr admSel : BitVec 2, State.reset = State.resetWith adr admSel

/-- R135, R137: every step keeps every Notice Queue at 8 records at most, its alert line asserted exactly when it is not
empty, a lost count above 0 only while it is full, and its sequence numbers without a gap up to the counter. -/
def Obligations.NoticesLawKept : Prop := KeptByStep NoticesLaw

/-- R148, R142, R146: every step keeps ADMIN with at least one port, quotas at most 16, frame buffers at most 24 bytes,
overlong only when full and empty outside COMMAND_IN, and response payloads at most 20 bytes. -/
def Obligations.CommandTablesKept : Prop :=
  KeptByStep RightsLaw ∧ KeptByStep BufferLaw ∧ KeptByStep ResponseLaw

/-- R26: every step keeps the law of the directory: every INSTALLED entry has aligned bases, contained masks and a max lease of
1 to 65,535, its visible range holds no reserved address and not the own one, its target range no reserved address; no two
entries visible to a common port have intersecting visible ranges, and no two on one segment intersecting target ranges. -/
def Obligations.DirectoryLawKept : Prop := KeptByStep DirectoryLaw

/-- R114: every step keeps the token counter off 0 and the tokens of HELD records non-zero and pairwise distinct. -/
def Obligations.TokenLawKept : Prop := KeptByStep TokenLaw

/-- R113: every step keeps one HELD record an entry, one record a port and entry, PENDING records only behind another port's
HELD record and in places without a gap, and every record on a live entry that its port sees. -/
def Obligations.LeaseLawKept : Prop := KeptByStep LeaseLaw

/-- R112, R115: in a state that keeps the law of the directory, every step keeps every live lease between 1 tick and 65,535
ms. That a lease expires before its remaining time could read 0 rests on the order in which the model lets time pass (log
entry 3). -/
def Obligations.RemainingLawKept : Prop :=
  ∀ s t : State, DirectoryLaw s → RemainingLaw s → step s = .next t → RemainingLaw t

/-- R12, R18: every step keeps a port's clock held exactly in WAITING, in ADDRESSING and for a byte in hand, and its abandon
timer running exactly while the part waits for the host in one of the five states. -/
def Obligations.PortLawKept : Prop := KeptByStep PortLaw

/-- R56, R57, R75: every step keeps the host ports, the arbiters and the engines in correspondence: a segment has a holder
exactly when it is ACTIVE, in ADDRESSING or relaying on it; a port is queued exactly when it waits, once and with at most two
others; a wait timer runs exactly for a waiting or addressing port; and each engine state goes with the segment state and the
port context that the table of engine states gives. -/
def Obligations.RelayLawKept : Prop := KeptByStep RelayLaw

/-- From a state in which ports, arbiters and engines correspond (R56, R57, R75), no step faults: the model's one fault stands
for states outside those laws (log entry 6). -/
def Obligations.RelayLawExcludesFaults : Prop := ∀ s : State, RelayLaw s → ∀ f : Fault, step s ≠ .fault f

/-- R1, R20, R22, R27, R55, R73, R104, R112, R114, R133, R142, R146, R148: what device reset sets, block by block. The queue of
waiting commands is not the part's and stays, which is the model's choice (log entry 22). -/
def Obligations.DeviceResetSetsEveryBlock : Prop :=
  ∀ (adr admSel : BitVec 2) (s : State), ∃ t : State, exec (.deviceReset adr admSel) s = .next t ∧
    (∀ p : Port, t.ports[p] =
        { ctx := .idle, addrExpected := false, byteInHand := false, readClosed := false, abandon := .stopped,
          clockHeld := false, upstream := [], lastRefusal := none, refusalCount := 0 } ∧
      t.defaults[p] = none ∧
      t.notices[p] = { records := [], seq := 0#8, lost := 0, alert := false } ∧
      t.buffers[p] = { bytes := [], overlong := false } ∧
      t.responses[p] = { status := .noCommand, echo := 0#8, payload := [] } ∧
      t.rights[p] = { rights := ⟨p.val = admSel.toNat, true, p.val = admSel.toNat, p.val = admSel.toNat⟩, quota := 4 }) ∧
    (∀ e : EntryIx, t.directory[e] = { gen := 0#8, route := none }) ∧
    (∀ m : Seg, t.segs[m] =
        { state := .idle, queue := [], waits := Vector.replicate 4 .stopped, enable := true, shared := false, waitLimit := 25,
          holdLimit := 30, disablePending := false, lossCount := 0, recoveryCount := 0 } ∧
      t.engines[m].state = .quiet ∧ t.engines[m].served = none ∧ t.engines[m].target = none ∧
      t.engines[m].busOwned = false ∧ t.engines[m].activity = .none ∧ t.engines[m].closing = false ∧
      t.engines[m].hold = .stopped ∧ t.engines[m].foreignBusy = false ∧ t.engines[m].retry = 0 ∧
      t.engines[m].sharedMode = false ∧ t.engines[m].brokenPort = none ∧ t.engines[m].pulses = 0) ∧
    (∀ i : Slot, t.leases[i] = none) ∧ t.tokenCounter = 1#8 ∧
    t.adr = adr ∧ t.admSel = admSel ∧ t.pending = s.pending

/-! ### Frames and the check order -/

/-- R158, R159: the frame of every command reads back as that command, its length is the command's, and what is read from
bytes is the command whose frame those bytes are: no byte of a frame is dropped. -/
def Obligations.FramesDecodeBack : Prop :=
  (∀ c : Command, opOfCode (opCode c.op) = some c.op ∧ c.frame.length = frameLength c.op ∧ buildCommand c.op c.args = some c) ∧
  (∀ (op : Op) (args : List Byte),
    (∀ c : Command, buildCommand op args = some c → c.frame = opCode op :: args) ∧
    (buildCommand op args = none ↔ args.length + 1 ≠ frameLength op)) ∧
  ∀ b : Byte, opOfCode b = none ↔
    b ∉ [0x10#8, 0x11#8, 0x12#8, 0x13#8, 0x14#8, 0x20#8, 0x21#8, 0x22#8, 0x23#8, 0x24#8, 0x30#8, 0x31#8, 0x32#8, 0x40#8,
      0x50#8, 0x51#8, 0x52#8, 0x53#8]

/-- R7, R143, R144: a stop or a repeated start on a port in COMMAND_IN whose buffer holds the frame of a command is that
command's row, taken on the port left IDLE (passive after a stop, address expected after a repeated start) with its buffer
emptied. A start there is a repeated start (log entry 20), and that a row is the taking of its frame is the model's reading (log
entry 7). -/
def Obligations.TakenFrameRunsItsCommand : Prop :=
  ∀ (p : Port) (c : Command) (s : State), s.ports[p].ctx = .commandIn → s.ports[p].clockHeld = false →
    s.buffers[p] = { bytes := c.frame, overlong := false } →
    exec (.stop p) s =
      exec (c.row p) ((s.onPort p (HostPort.toIdle false)).onBuffer p (fun _ => { bytes := [], overlong := false })) ∧
    ∀ i : Instr, i = .repeatedStart p ∨ i = .start p → exec i s =
      exec (c.row p) ((s.onPort p (HostPort.toIdle true)).onBuffer p (fun _ => { bytes := [], overlong := false }))

/-- R7, R143, R144: a frame ended by a stop, which leaves the port IDLE and passive, or by a repeated start, which leaves it IDLE
with an address byte expected. An empty frame is no command; a first byte that is no command code is answered BAD_COMMAND,
whatever the length; a command code with another number of bytes, or with the marker set, is answered BAD_LENGTH. In each case the
byte is echoed, no payload is given and nothing else changes. The row BAD_COMMAND is the second case on a port already left IDLE.
A start in COMMAND_IN is a repeated start (log entry 20). -/
def Obligations.MalformedFramesAnswered : Prop :=
  ∀ (p : Port) (s : State),
    (s.ports[p].ctx = .commandIn → s.ports[p].clockHeld = false → ∀ (i : Instr) (expected : Bool),
      (i = .stop p ∧ expected = false ∨ (i = .repeatedStart p ∨ i = .start p) ∧ expected = true) →
      let s₁ := (s.onPort p (HostPort.toIdle expected)).onBuffer p (fun _ => { bytes := [], overlong := false })
      (s.buffers[p].bytes = [] → exec i s = .next s₁) ∧
      (∀ code args, s.buffers[p].bytes = code :: args → opOfCode code = none →
        exec i s = .next (s₁.respond p .badCommand code [])) ∧
      (∀ op args, s.buffers[p].bytes = opCode op :: args →
        (s.buffers[p].overlong = true ∨ args.length + 1 ≠ frameLength op) →
        exec i s = .next (s₁.respond p .badLength (opCode op) []))) ∧
    (∀ code : Byte, s.ports[p].ctx = .idle → opOfCode code = none →
      exec (.badCommand p code) s = .next (s.respond p .badCommand code []))

/-- R149: the rights step passes or fails as the table of rights says, looked up in the caller's row; a command that fails it
is answered DENIED with its code echoed, and nothing else changes. A PRST of a port above 3 by a caller with ADMIN passes the
step and is answered BAD_ARGUMENT. Every command row on an IDLE port completes. -/
def Obligations.RightsStepDecides : Prop :=
  ∀ (c : Command) (p : Port) (s : State), s.ports[p].ctx = .idle →
    ∃ t : State, exec (c.row p) s = .next t ∧
      (t.responses[p].status = .denied ↔ ¬ Permitted s.rights[p].rights p c) ∧
      (¬ Permitted s.rights[p].rights p c → t = s.respond p .denied (opCode c.op) []) ∧
      (∀ b, c = .prst b → 3 < b.toNat → s.rights[p].rights.admin = true → t = s.respond p .badArgument 0x52#8 [])

/-- R144 step 4 with the argument rules of each command: a permitted command is answered BAD_ARGUMENT exactly when its
arguments step refuses it, and then nothing but the caller's response changes. -/
def Obligations.ArgumentsStepDecides : Prop :=
  ∀ (c : Command) (p : Port) (s : State), MayCommand s p c →
    ∃ t : State, exec (c.row p) s = .next t ∧
      (t.responses[p].status = .badArgument ↔ ArgumentsRefused c) ∧
      (ArgumentsRefused c → t = s.respond p .badArgument (opCode c.op) [])

/-! ### Directory commands -/

/-- R29 to R31: an INSR with lawful arguments is refused with OCCUPIED on an INSTALLED record, with RESERVED_ADDRESS where its
visible range touches a reserved address or the own address or its target range a reserved one, and with CONFLICT, naming the
lowest entry in conflict, where some port of both masks would see an address twice or a target address on the segment is
taken; otherwise it installs the route with the next generation. That the lowest entry is taken over both kinds of conflict
together is the model's reading (log entry 8). -/
def Obligations.InsrInstallsOrRefuses : Prop :=
  ∀ (p : Port) (e : EntryIx) (r : Route) (s : State),
    s.ports[p].ctx = .idle → s.rights[p].rights.route = true →
    aligned r.vbase r.span = true → aligned r.tbase r.span = true → masksOk r.vis r.wp = true →
    1 ≤ r.maxLease → r.maxLease ≤ 65535 →
    let conflict := fun (i : EntryIx) => i ≠ e ∧ ∃ o, s.directory[i].route = some o ∧
      ((∃ q, hasPort r.vis q = true ∧ hasPort o.vis q = true) ∧
          (∃ a, inRange r.vbase r.span a = true ∧ inRange o.vbase o.span a = true) ∨
        r.seg = o.seg ∧ ∃ a, inRange r.tbase r.span a = true ∧ inRange o.tbase o.span a = true)
    let free := r.vbase.toNat + r.span.size ≤ 0x78 ∧ r.tbase.toNat + r.span.size ≤ 0x78 ∧
      ∀ a, (inRange r.vbase r.span a = true → 0x08 ≤ a.toNat ∧ a ≠ s.ownAddr) ∧
        (inRange r.tbase r.span a = true → 0x08 ≤ a.toNat)
    let run := exec (.insr p (entryByte e) (addrByte r.vbase) (countByte r.span.size) (segByte r.seg) (addrByte r.tbase)
      (maskByte r.vis) (maskByte r.wp) (modeByte r.mode) (BitVec.ofNat 16 r.maxLease)) s
    ((s.directory[e].route).isSome = true → run = .next (s.respond p .occupied 0x10#8 [])) ∧
    (s.directory[e].route = none → ¬ free → run = .next (s.respond p .reservedAddress 0x10#8 [])) ∧
    (s.directory[e].route = none → free →
      (∀ i, conflict i → (∀ j, j < i → ¬ conflict j) → run = .next (s.respond p .conflict 0x10#8 [entryByte i])) ∧
      ((∀ i, ¬ conflict i) →
        run = .next ((s.onEntry e (fun x => { gen := x.gen + 1#8, route := some r })).respond p .ok 0x10#8
          [entryByte e, s.directory[e].gen + 1#8])))

/-- R32, R126: DELR frees the record, keeps its generation, frees every lease record that names it and tells each port that had
one, with its token or 0; nothing else changes. An index above 47 is BAD_ARGUMENT; a FREE record is refused with NO_ENTRY. -/
def Obligations.DelrRemovesEntry : Prop :=
  (∀ (p : Port) (index : Byte) (s : State), s.ports[p].ctx = .idle → s.rights[p].rights.route = true → 47 < index.toNat →
    exec (.delr p index) s = .next (s.respond p .badArgument 0x11#8 [])) ∧
  ∀ (p : Port) (e : EntryIx) (s : State), s.ports[p].ctx = .idle → s.rights[p].rights.route = true →
    (s.directory[e].route = none → exec (.delr p (entryByte e)) s = .next (s.respond p .noEntry 0x11#8 [])) ∧
    (∀ r, s.directory[e].route = some r → LeaseLaw s →
      ∃ t : State, exec (.delr p (entryByte e)) s = .next t ∧
        t.directory[e] = { gen := s.directory[e].gen, route := none } ∧ (∀ f, f ≠ e → t.directory[f] = s.directory[f]) ∧
        (∀ (i : Slot) (l : Lease), t.leases[i] = some l ↔ s.leases[i] = some l ∧ l.entry ≠ e) ∧
        (∀ (i : Slot) (l : Lease), s.leases[i] = some l → l.entry = e →
          t.notices[l.port] = (s.notices[l.port]).store (.leaseRevoked .routeRemoved) (some e) (some r.seg) l.token) ∧
        (∀ q : Port, (∀ (i : Slot) (l : Lease), s.leases[i] = some l → l.entry = e → l.port ≠ q) →
          t.notices[q] = s.notices[q]) ∧
        t.responses[p] = { status := .ok, echo := 0x11#8, payload := [entryByte e, s.directory[e].gen] } ∧
        OtherResponsesSame p s t ∧ t.ports = s.ports ∧ SegmentsSame s t ∧ t.defaults = s.defaults ∧ t.rights = s.rights ∧
        t.tokenCounter = s.tokenCounter ∧ t.buffers = s.buffers ∧ t.adr = s.adr ∧ t.admSel = s.admSel ∧
        t.pending = s.pending)

/-- R33, R34, R127, R128: MODR replaces the masks, the mode and the max lease and keeps the addresses, the segment and the
generation; records of ports that lose visibility go, each with LEASE_REVOKED, VISIBILITY_LOST and its token or 0; records of
ports that keep it stay; a holder that keeps it keeps its token with its remaining time cut to the new max lease; behind a
holder that loses it, the oldest remaining request is promoted, with a token of no other HELD record, past which the token counter
moves. The requests that remain keep their relative order and move forward to the places 1, 2, 3 without a gap. Records of other
entries, FREE slots and everything else stay. -/
def Obligations.ModrChangesAccess : Prop :=
  ∀ (p : Port) (e : EntryIx) (x : AccessFields) (s : State), s.ports[p].ctx = .idle → s.rights[p].rights.route = true →
    masksOk x.vis x.wp = true → 1 ≤ x.maxLease → x.maxLease ≤ 65535 →
    let run := exec (.modr p (entryByte e) (maskByte x.vis) (maskByte x.wp) (modeByte x.mode) (BitVec.ofNat 16 x.maxLease)) s
    let conflict := fun (r : Route) (i : EntryIx) => i ≠ e ∧ ∃ o, s.directory[i].route = some o ∧
      (∃ q, hasPort x.vis q = true ∧ hasPort o.vis q = true) ∧
      ∃ a, inRange r.vbase r.span a = true ∧ inRange o.vbase o.span a = true
    let place := fun (k : Nat) => allSlots.countP (fun j => match s.leases[j] with
      | some y => y.entry = e && !y.isHeld && hasPort x.vis y.port && y.order ≤ k
      | none => false)
    let loser := ∃ (j : Slot) (h : Lease), s.leases[j] = some h ∧ h.entry = e ∧ h.isHeld = true ∧ hasPort x.vis h.port = false
    (s.directory[e].route = none → run = .next (s.respond p .noEntry 0x12#8 [])) ∧
    (∀ r, s.directory[e].route = some r →
      (∀ i, conflict r i → (∀ j, j < i → ¬ conflict r j) → run = .next (s.respond p .conflict 0x12#8 [entryByte i])) ∧
      ((∀ i, ¬ conflict r i) → LeaseLaw s → ∃ t : State, run = .next t ∧
        t.directory[e] = { gen := s.directory[e].gen,
                           route := some { r with vis := x.vis, wp := x.wp, mode := x.mode, maxLease := x.maxLease } } ∧
        (∀ f, f ≠ e → t.directory[f] = s.directory[f]) ∧
        (∀ (i : Slot) (l : Lease), l.entry ≠ e → (t.leases[i] = some l ↔ s.leases[i] = some l)) ∧
        (∀ i : Slot, s.leases[i] = none → t.leases[i] = none) ∧
        (∀ (i : Slot) (l : Lease), s.leases[i] = some l → l.entry = e → hasPort x.vis l.port = false →
          t.leases[i] = none ∧
          t.notices[l.port] = (s.notices[l.port]).store (.leaseRevoked .visibilityLost) (some e) (some r.seg) l.token) ∧
        (∀ (i : Slot) (l : Lease), s.leases[i] = some l → l.entry = e → hasPort x.vis l.port = true →
          ∃ l', t.leases[i] = some l' ∧ l'.port = l.port ∧ l'.entry = e ∧ l'.requested = l.requested ∧ l'.gen = l.gen ∧
            (l.isHeld = true → l'.isHeld = true ∧ l'.token = l.token ∧ t.notices[l.port] = s.notices[l.port] ∧
              l'.remaining = min l.remaining (x.maxLease * Config.ticksPerMs)) ∧
            (l.isHeld = false →
              (l'.isHeld = true ↔ loser ∧
                ∀ (j : Slot) (k : Lease), s.leases[j] = some k → k.entry = e → k.isHeld = false →
                  hasPort x.vis k.port = true → l.order ≤ k.order) ∧
              (l'.isHeld = true → l'.remaining = min l.requested x.maxLease * Config.ticksPerMs ∧
                t.tokenCounter = (if l'.token = 255#8 then 1#8 else l'.token + 1#8) ∧
                (∀ (j : Slot) (k : Lease), s.leases[j] = some k → k.isHeld = true → k.entry ≠ e → k.token ≠ l'.token) ∧
                t.notices[l.port] = (s.notices[l.port]).store .leaseGranted (some e) (some r.seg) l'.token) ∧
              (l'.isHeld = false → t.notices[l.port] = s.notices[l.port] ∧
                (¬ loser → l'.order = place l.order) ∧ (loser → l'.order + 1 = place l.order)))) ∧
        (∀ q : Port, (∀ (i : Slot) (l : Lease), s.leases[i] = some l → l.entry = e → l.port ≠ q) →
          t.notices[q] = s.notices[q]) ∧
        (¬ loser ∨ place 3 = 0 → t.tokenCounter = s.tokenCounter) ∧
        t.responses[p] = { status := .ok, echo := 0x12#8, payload := [entryByte e, s.directory[e].gen] } ∧
        OtherResponsesSame p s t ∧ t.ports = s.ports ∧ SegmentsSame s t ∧ t.defaults = s.defaults ∧ t.rights = s.rights ∧
        t.buffers = s.buffers ∧ t.adr = s.adr ∧ t.admSel = s.admSel ∧ t.pending = s.pending))

/-- R35: RDRT reports the record as it stands, INSTALLED or FREE, and changes nothing but the caller's response; an index above
47 is BAD_ARGUMENT. -/
def Obligations.RdrtReportsEntry : Prop :=
  ∀ (p : Port) (s : State), s.ports[p].ctx = .idle →
    (∀ (e : EntryIx) (r : Route), s.directory[e].route = some r →
      exec (.rdrt p (entryByte e)) s = .next (s.respond p .ok 0x13#8
        [entryByte e, 0x01#8, s.directory[e].gen, r.vbase.setWidth 8, BitVec.ofNat 8 r.span.size, BitVec.ofNat 8 r.seg.val,
          r.tbase.setWidth 8, r.vis.setWidth 8, r.wp.setWidth 8, (if r.mode = .exclusive then 0x01#8 else 0x00#8),
          BitVec.ofNat 8 (r.maxLease / 256), BitVec.ofNat 8 (r.maxLease % 256)])) ∧
    (∀ e : EntryIx, s.directory[e].route = none →
      exec (.rdrt p (entryByte e)) s = .next (s.respond p .ok 0x13#8
        [entryByte e, 0x00#8, s.directory[e].gen, 0xFF#8, 0xFF#8, 0xFF#8, 0xFF#8, 0xFF#8, 0xFF#8, 0xFF#8, 0x00#8, 0x00#8])) ∧
    (∀ index : Byte, 47 < index.toNat → exec (.rdrt p index) s = .next (s.respond p .badArgument 0x13#8 []))

/-- R36: DFLT sets the default segment of any port to 0 to 7 or to none (0xFF), reports the old and the new value, and changes
nothing else; a port above 3 or another segment byte is BAD_ARGUMENT. -/
def Obligations.DfltSetsDefault : Prop :=
  ∀ (p : Port) (s : State), s.ports[p].ctx = .idle → s.rights[p].rights.route = true →
    (∀ (q : Port) (d : Option Seg),
      exec (.dflt p (portByte q) (segOrAbsent d)) s =
        .next ({ s with defaults := s.defaults.set q d }.respond p .ok 0x14#8
          [portByte q, segOrAbsent s.defaults[q], segOrAbsent d])) ∧
    (∀ port segment : Byte, 3 < port.toNat ∨ 7 < segment.toNat ∧ segment ≠ 0xFF#8 →
      exec (.dflt p port segment) s = .next (s.respond p .badArgument 0x14#8 []))

/-! ### Lease commands -/

/-- R117, R118: LACQ for a valid entry, duration and wait flag, in the order of its checks: NO_ENTRY on a record that is FREE or
not visible to the caller; ALREADY with the state, token and remaining time of the caller's record; QUOTA with the count and
the quota; TABLE_FULL; and behind another port's lease HELD_ELSEWHERE without the wait flag, or a PENDING record at the tail of
the entry's list with it. What is refused changes nothing but the response. -/
def Obligations.LacqRefusesOrQueues : Prop :=
  ∀ (p : Port) (e : EntryIx) (d : Half) (w : Bool) (s : State),
    s.ports[p].ctx = .idle → s.rights[p].rights.lease = true → d ≠ 0#16 →
    let run := exec (.lacq p (entryByte e) d (flagByte w)) s
    let sees := ∃ r, s.directory[e].route = some r ∧ hasPort r.vis p = true
    (¬ sees → run = .next (s.respond p .noEntry 0x20#8 [])) ∧
    (sees → ∀ i l, s.recordOf p e = some (i, l) →
      (∀ t n, l.status = .held t n → run = .next (s.respond p .already 0x20#8 ([0x02#8, t] ++ halfBytes (roundUpMs n)))) ∧
      (∀ k, l.status = .pending k → run = .next (s.respond p .already 0x20#8 [0x01#8, 0x00#8, 0x00#8, 0x00#8]))) ∧
    (sees → s.recordOf p e = none →
      (s.rights[p].quota ≤ s.leaseCount p →
        run = .next (s.respond p .quota 0x20#8
          [BitVec.ofNat 8 (s.leaseCount p), BitVec.ofNat 8 s.rights[p].quota])) ∧
      (s.leaseCount p < s.rights[p].quota →
        ((∀ i : Slot, s.leases[i] ≠ none) → run = .next (s.respond p .tableFull 0x20#8 [])) ∧
        (∀ i : Slot, s.leases[i] = none → (∀ j : Slot, j < i → s.leases[j] ≠ none) →
          ∀ j h, s.heldOn e = some (j, h) →
            (w = false → run = .next (s.respond p .heldElsewhere 0x20#8 [portByte h.port])) ∧
            (w = true → run = .next (({ s with leases := s.leases.set i (some
                  { port := p, entry := e, gen := s.directory[e].gen, requested := d.toNat
                    status := .pending ((s.pendingPorts e).length + 1) }) }).respond p .pending 0x20#8
                [entryByte e, BitVec.ofNat 8 ((s.pendingPorts e).length + 1), portByte h.port])))))

/-- R114, R118: LACQ on a visible, unleased entry, within the quota and with a slot free, makes a HELD record in the lowest FREE
slot for the duration clipped to the max lease, and issues the first value from the token counter on that no HELD record has;
the counter moves past it, from 255 to 1. Nothing else changes but the response. -/
def Obligations.LacqGrantsLease : Prop :=
  ∀ (p : Port) (e : EntryIx) (d : Half) (w : Bool) (s : State) (r : Route) (i : Slot),
    s.ports[p].ctx = .idle → s.rights[p].rights.lease = true → d ≠ 0#16 →
    s.directory[e].route = some r → hasPort r.vis p = true → s.recordOf p e = none →
    s.leaseCount p < s.rights[p].quota → s.leases[i] = none → (∀ j : Slot, j < i → s.leases[j] ≠ none) →
    s.heldOn e = none → s.tokenCounter ≠ 0#8 →
    ∃ (n : Nat) (tok : Byte),
      exec (.lacq p (entryByte e) d (flagByte w)) s =
        .next (({ s with leases := s.leases.set i (some
                           { port := p, entry := e, gen := s.directory[e].gen, requested := d.toNat
                             status := .held tok (min d.toNat r.maxLease * Config.ticksPerMs) })
                         tokenCounter := if tok = 255#8 then 1#8 else tok + 1#8 }).respond p .ok 0x20#8
            ([entryByte e, tok] ++ halfBytes (min d.toNat r.maxLease))) ∧
      tok = bumpToken^[n] s.tokenCounter ∧
      (∀ (j : Slot) (l : Lease), s.leases[j] = some l → l.isHeld = true → l.token ≠ tok) ∧
      ∀ k, k < n → ∃ (j : Slot) (l : Lease), s.leases[j] = some l ∧ l.isHeld = true ∧ l.token = bumpToken^[k] s.tokenCounter

/-- R119: LREN with an index above 47 or duration 0 is BAD_ARGUMENT; otherwise it answers NOT_HELD without a record of the
caller, STALE for a PENDING record or another token, and else sets the remaining time to the duration clipped to the max lease,
and nothing else but the response. -/
def Obligations.LrenRenewsLease : Prop :=
  (∀ (p : Port) (index token : Byte) (d : Half) (s : State), s.ports[p].ctx = .idle → s.rights[p].rights.lease = true →
    47 < index.toNat ∨ d = 0#16 → exec (.lren p index token d) s = .next (s.respond p .badArgument 0x21#8 [])) ∧
  ∀ (p : Port) (e : EntryIx) (token : Byte) (d : Half) (s : State),
    s.ports[p].ctx = .idle → s.rights[p].rights.lease = true → d ≠ 0#16 →
    let run := exec (.lren p (entryByte e) token d) s
    (s.recordOf p e = none → run = .next (s.respond p .notHeld 0x21#8 [])) ∧
    (∀ i l, s.recordOf p e = some (i, l) →
      (∀ k, l.status = .pending k → run = .next (s.respond p .stale 0x21#8 [])) ∧
      (∀ t n, l.status = .held t n →
        (token ≠ t → run = .next (s.respond p .stale 0x21#8 [])) ∧
        (token = t → ∀ r, s.directory[e].route = some r →
          run = .next (({ s with leases := s.leases.set i (some
              { l with status := .held t (min d.toNat r.maxLease * Config.ticksPerMs) }) }).respond p .ok 0x21#8
            ([entryByte e, t] ++ halfBytes (min d.toNat r.maxLease))))))

/-- R120: LREL with a non-zero token answers NOT_HELD without a record of the caller, STALE for a PENDING record or another
token, and otherwise frees the record and promotes the entry's oldest request in the same event; the response names the
promoted port, or none. -/
def Obligations.LrelReleasesLease : Prop :=
  ∀ (p : Port) (e : EntryIx) (token : Byte) (s : State),
    s.ports[p].ctx = .idle → s.rights[p].rights.lease = true → token ≠ 0#8 →
    let run := exec (.lrel p (entryByte e) token) s
    (s.recordOf p e = none → run = .next (s.respond p .notHeld 0x22#8 [])) ∧
    (∀ i l, s.recordOf p e = some (i, l) →
      (∀ k, l.status = .pending k → run = .next (s.respond p .stale 0x22#8 [])) ∧
      (∀ t n, l.status = .held t n →
        (token ≠ t → run = .next (s.respond p .stale 0x22#8 [])) ∧
        (token = t → run = .next ((({ s with leases := s.leases.set i none }).promote e).respond p .ok 0x22#8
          [entryByte e, match s.pendingAt e 1 with
            | some (_, k) => portByte k.port
            | none => 0xFF#8]))))

/-- R121: LREL with token 0 answers NOT_HELD without a record, STALE for a HELD one, and withdraws a PENDING one silently: the
record is freed, those behind it in the entry's list move one place forward, and every other record stays. -/
def Obligations.LrelCancelWithdraws : Prop :=
  ∀ (p : Port) (e : EntryIx) (s : State), s.ports[p].ctx = .idle → s.rights[p].rights.lease = true →
    let run := exec (.lrelCancel p (entryByte e)) s
    (s.recordOf p e = none → run = .next (s.respond p .notHeld 0x22#8 [])) ∧
    (∀ i l, s.recordOf p e = some (i, l) →
      (∀ t n, l.status = .held t n → run = .next (s.respond p .stale 0x22#8 [])) ∧
      (∀ k, l.status = .pending k →
        ∃ ls : Vector (Option Lease) 16,
          run = .next (({ s with leases := ls }).respond p .ok 0x22#8 [entryByte e, 0xFF#8]) ∧
          ls[i] = none ∧
          ∀ j : Slot, j ≠ i → ∀ o : Option Lease, s.leases[j] = o →
            (match o with
              | none => ls[j] = none
              | some x => ls[j] = some (match x.status with
                | .pending q => if x.entry = e ∧ k < q then { x with status := .pending (q - 1) } else x
                | .held .. => x))))

/-- R125: LREV answers NO_ENTRY on a FREE record and NOT_HELD on an unleased one; otherwise it frees every record on the entry,
tells the holder BY_ADMIN with its token and each pending port CANCELLED with token 0, promotes nobody, and reports the holder
and the number cancelled. Everything else stays. A caller without ADMIN reads DENIED, an index above 47 BAD_ARGUMENT. -/
def Obligations.LrevRevokesLeases : Prop :=
  (∀ (p : Port) (index : Byte) (s : State), s.ports[p].ctx = .idle →
    (s.rights[p].rights.admin = false → exec (.lrev p index) s = .next (s.respond p .denied 0x23#8 [])) ∧
    (s.rights[p].rights.admin = true → 47 < index.toNat →
      exec (.lrev p index) s = .next (s.respond p .badArgument 0x23#8 []))) ∧
  ∀ (p : Port) (e : EntryIx) (s : State), s.ports[p].ctx = .idle → s.rights[p].rights.admin = true →
    let run := exec (.lrev p (entryByte e)) s
    (s.directory[e].route = none → run = .next (s.respond p .noEntry 0x23#8 [])) ∧
    (∀ r, s.directory[e].route = some r →
      (s.heldOn e = none → run = .next (s.respond p .notHeld 0x23#8 [])) ∧
      (∀ i h, s.heldOn e = some (i, h) → LeaseLaw s → ∃ t : State, run = .next t ∧
        (∀ (j : Slot) (l : Lease), t.leases[j] = some l ↔ s.leases[j] = some l ∧ l.entry ≠ e) ∧
        (∀ (j : Slot) (l : Lease), s.leases[j] = some l → l.entry = e →
          t.notices[l.port] = (s.notices[l.port]).store (.leaseRevoked (if l.isHeld then .byAdmin else .cancelled)) (some e)
            (some r.seg) (if l.isHeld then l.token else 0#8)) ∧
        (∀ q : Port, (∀ (j : Slot) (l : Lease), s.leases[j] = some l → l.entry = e → l.port ≠ q) →
          t.notices[q] = s.notices[q]) ∧
        t.responses[p] = { status := .ok, echo := 0x23#8
                           payload := [entryByte e, portByte h.port, BitVec.ofNat 8 (s.pendingPorts e).length] } ∧
        OtherResponsesSame p s t ∧ t.ports = s.ports ∧ SegmentsSame s t ∧ SettingsSame s t ∧
        t.tokenCounter = s.tokenCounter ∧ t.buffers = s.buffers))

/-- R130: LQRY on an INSTALLED entry reports its generation, its lease, its pending ports in order and the caller's own record,
and changes nothing but the caller's response; on a FREE one it answers NO_ENTRY, and an index above 47 is BAD_ARGUMENT. The
token is given to the holder alone. -/
def Obligations.LqryReportsLease : Prop :=
  (∀ (p : Port) (index : Byte) (s : State), s.ports[p].ctx = .idle → 47 < index.toNat →
    exec (.lqry p index) s = .next (s.respond p .badArgument 0x24#8 [])) ∧
  ∀ (p : Port) (e : EntryIx) (s : State), s.ports[p].ctx = .idle →
    (s.directory[e].route = none → exec (.lqry p (entryByte e)) s = .next (s.respond p .noEntry 0x24#8 [])) ∧
    ((s.directory[e].route).isSome = true →
      ∃ state holder token hi lo own order : Byte,
        exec (.lqry p (entryByte e)) s = .next (s.respond p .ok 0x24#8
          [entryByte e, s.directory[e].gen, state, holder, token, hi, lo, BitVec.ofNat 8 (s.pendingPorts e).length,
            portOrAbsent (s.pendingPorts e)[0]?, portOrAbsent (s.pendingPorts e)[1]?, portOrAbsent (s.pendingPorts e)[2]?,
            own, order]) ∧
        (s.heldOn e = none →
          state = 0x00#8 ∧ holder = 0xFF#8 ∧ token = 0x00#8 ∧ hi = 0x00#8 ∧ lo = 0x00#8) ∧
        (∀ i l, s.heldOn e = some (i, l) →
          state = 0x02#8 ∧ holder = portByte l.port ∧ token = (if l.port = p then l.token else 0x00#8) ∧
          [hi, lo] = halfBytes ((l.remaining + 999) / 1000)) ∧
        (s.recordOf p e = none → own = 0x00#8 ∧ order = 0x00#8) ∧
        (∀ i l, s.recordOf p e = some (i, l) →
          (∀ k, l.status = .pending k → own = 0x01#8 ∧ order = BitVec.ofNat 8 k) ∧
          (l.isHeld = true → own = 0x02#8 ∧ order = 0x00#8)))

/-- R122: promotion makes the request of order 1 on the entry the holder, for its requested duration clipped to the max lease
that the entry has now, with a token that no other HELD record has; the requests behind it move one place forward; its port is
told LEASE_GRANTED with the new token; nothing else changes. Without a request it changes nothing. -/
def Obligations.PromotionServesOldestRequest : Prop :=
  ∀ (e : EntryIx) (s : State),
    (s.pendingAt e 1 = none → s.promote e = s) ∧
    (∀ (i : Slot) (l : Lease) (r : Route), s.pendingAt e 1 = some (i, l) → s.directory[e].route = some r →
      s.tokenCounter ≠ 0#8 →
      ∃ (tok : Byte) (ls : Vector (Option Lease) 16),
        s.promote e = { s with
          leases := ls
          tokenCounter := if tok = 255#8 then 1#8 else tok + 1#8
          notices := s.notices.set l.port ((s.notices[l.port]).store .leaseGranted (some e) (some r.seg) tok) } ∧
        tok ≠ 0#8 ∧
        (∀ (j : Slot) (x : Lease), s.leases[j] = some x → x.isHeld = true → x.token ≠ tok) ∧
        ls[i] = some { l with status := .held tok (min l.requested r.maxLease * Config.ticksPerMs) } ∧
        ∀ j : Slot, j ≠ i → ∀ o : Option Lease, s.leases[j] = o →
          (match o with
            | none => ls[j] = none
            | some x => ls[j] = some (match x.status with
              | .pending q => if x.entry = e ∧ 1 < q then { x with status := .pending (q - 1) } else x
              | .held .. => x)))

/-- R123: a lease that expires is freed, its port is told LEASE_EXPIRED with the entry, its segment and the expired token, and
the entry's oldest request is promoted in the same event. -/
def Obligations.LeaseExpiryFreesAndPromotes : Prop :=
  ∀ (e : EntryIx) (s : State) (i : Slot) (l : Lease) (r : Route),
    s.heldOn e = some (i, l) → s.directory[e].route = some r →
    exec (.leaseExpiry e) s =
      .next (({ s with
        leases := s.leases.set i none
        notices := s.notices.set l.port
          ((s.notices[l.port]).store .leaseExpired (some e) (some r.seg) l.token) }).promote e)

/-! ### Segment commands -/

/-- R70: an SCFG with lawful arguments stores the enable field, the shared flag and both limits in every state, and acts on the
enable argument by the segment's state: the segment record after it, the status, and the payload. Nothing else changes. -/
def Obligations.ScfgConfiguresSegment : Prop :=
  ∀ (p : Port) (m : Seg) (en sh : Bool) (w h : Byte) (s : State),
    s.ports[p].ctx = .idle → s.rights[p].rights.segment = true → w ≠ 0#8 → 5 ≤ h.toNat → h.toNat ≤ 100 →
    let a := s.segs[m]
    let a₁ := { a with enable := en, shared := sh, waitLimit := w.toNat, holdLimit := h.toNat }
    let run := exec (.scfg p (segByte m) (flagByte en) (flagByte sh) w h) s
    let answer := fun (b : Arbiter) (code : Byte) =>
      .next ((s.onSeg m (fun _ => b)).respond p (if b.disablePending then .accepted else .ok) 0x30#8
        [segByte m, code, flagByte b.disablePending])
    (a.state = .idle → en = true → run = answer a₁ 0x01#8) ∧
    (a.state = .idle → en = false → run = answer { a₁ with state := .disabled } 0x00#8) ∧
    (∀ q, a.state = .active q → run = answer { a₁ with disablePending := !en } 0x02#8) ∧
    (∀ q, a.state = .recovering q → run = answer { a₁ with disablePending := !en } 0x03#8) ∧
    (a.state = .fault → en = true → run = answer a₁ 0x04#8) ∧
    (a.state = .fault → en = false → run = answer { a₁ with state := .disabled } 0x00#8) ∧
    (a.state = .disabled → en = false → run = answer a₁ 0x00#8) ∧
    (a.state = .disabled → en = true → run = answer { a₁ with state := .idle } 0x01#8)

/-- R72: SSTA reports the segment record as it stands and changes nothing but the caller's response; a segment above 7 is
BAD_ARGUMENT. -/
def Obligations.SstaReportsSegment : Prop :=
  ∀ (p : Port) (s : State), s.ports[p].ctx = .idle →
    (∀ m : Seg, ∃ state holder resume flags : Byte,
      exec (.ssta p (segByte m)) s = .next (s.respond p .ok 0x31#8
        [segByte m, state, holder, resume, BitVec.ofNat 8 s.segs[m].queue.length, portOrAbsent s.segs[m].queue[0]?,
          portOrAbsent s.segs[m].queue[1]?, portOrAbsent s.segs[m].queue[2]?, flags, BitVec.ofNat 8 s.segs[m].waitLimit,
          BitVec.ofNat 8 s.segs[m].holdLimit, hiByte (BitVec.ofNat 16 s.segs[m].lossCount),
          loByte (BitVec.ofNat 16 s.segs[m].lossCount), hiByte (BitVec.ofNat 16 s.segs[m].recoveryCount),
          loByte (BitVec.ofNat 16 s.segs[m].recoveryCount)]) ∧
      (s.segs[m].state = .disabled → state = 0x00#8 ∧ holder = 0xFF#8 ∧ resume = 0xFF#8) ∧
      (s.segs[m].state = .idle → state = 0x01#8 ∧ holder = 0xFF#8 ∧ resume = 0xFF#8) ∧
      (∀ q, s.segs[m].state = .active q → state = 0x02#8 ∧ holder = portByte q ∧ resume = 0xFF#8) ∧
      (∀ q, s.segs[m].state = .recovering q → state = 0x03#8 ∧ holder = 0xFF#8 ∧ resume = portOrAbsent q) ∧
      (s.segs[m].state = .fault → state = 0x04#8 ∧ holder = 0xFF#8 ∧ resume = 0xFF#8) ∧
      flags.getLsbD 0 = s.segs[m].enable ∧ flags.getLsbD 1 = s.segs[m].shared ∧
      flags.getLsbD 2 = s.segs[m].disablePending ∧ flags.getLsbD 3 = s.engines[m].foreignBusy ∧ flags.toNat < 16) ∧
    (∀ b : Byte, 7 < b.toNat → exec (.ssta p b) s = .next (s.respond p .badArgument 0x31#8 []))

/-- R110: SRCV begins a recovery on a segment that is IDLE, FAULT or ACTIVE: with no broken port, with the holder in ADDRESSING
as resume port, or after breaking a holder in a relay state with RECOVERY_FORCED; it is ACCEPTED with the segment RECOVERING. On
a RECOVERING segment it answers SEG_BUSY and on a DISABLED one SEG_DISABLED, and does nothing. A caller without SEGMENT reads
DENIED, a segment above 7 BAD_ARGUMENT. -/
def Obligations.SrcvActsBySegmentState : Prop :=
  (∀ (p : Port) (b : Byte) (s : State), s.ports[p].ctx = .idle →
    (s.rights[p].rights.segment = false → exec (.srcv p b) s = .next (s.respond p .denied 0x32#8 [])) ∧
    (s.rights[p].rights.segment = true → 7 < b.toNat → exec (.srcv p b) s = .next (s.respond p .badArgument 0x32#8 []))) ∧
  ∀ (p : Port) (m : Seg) (s : State), s.ports[p].ctx = .idle → s.rights[p].rights.segment = true →
    let run := exec (.srcv p (segByte m)) s
    let begun := fun (t : State) => .next (t.respond p .accepted 0x32#8 [segByte m, 0x03#8])
    (s.segs[m].state = .idle ∨ s.segs[m].state = .fault → run = begun (s.inRecovery m none none)) ∧
    (∀ h t, s.segs[m].state = .active h → s.ports[h].ctx = .addressing t → run = begun (s.inRecovery m (some h) none)) ∧
    (∀ h t, s.segs[m].state = .active h → s.ports[h].ctx = .relayWrite t ∨ s.ports[h].ctx = .relayRead t →
      run = begun ((s.afterBreak m h t .recoveryForced).inRecovery m none (some h))) ∧
    (∀ q, s.segs[m].state = .recovering q → run = .next (s.respond p .segBusy 0x32#8 [segByte m, 0x03#8])) ∧
    (s.segs[m].state = .disabled → run = .next (s.respond p .segDisabled 0x32#8 [segByte m, 0x00#8]))

/-! ### Notices, ports and identity -/

/-- R138: NFET removes the oldest record of the caller's own queue, releases the alert line with the last one, clears the lost
count, and returns the record, the lost count and the number left; on an empty lawful queue it changes nothing but the response,
whose kind is 0. The sequence counter stays. -/
def Obligations.NfetRemovesOldest : Prop :=
  ∀ (p : Port) (s : State), s.ports[p].ctx = .idle →
    (∀ n rest, s.notices[p].records = n :: rest →
      exec (.nfet p) s =
        .next ((s.onNotices p (fun q =>
            { q with records := rest, lost := 0, alert := if rest = [] then false else q.alert })).respond p .ok 0x40#8
          [n.kind.code, n.seq, entryOrAbsent n.entry, segOrAbsent n.seg, n.token, n.kind.detail,
            BitVec.ofNat 8 s.notices[p].lost, BitVec.ofNat 8 rest.length])) ∧
    (s.notices[p].records = [] → s.notices[p].Lawful →
      exec (.nfet p) s = .next (s.respond p .ok 0x40#8
        [0x00#8, 0x00#8, 0xFF#8, 0xFF#8, 0x00#8, 0x00#8, 0x00#8, 0x00#8]))

/-- R155: PSTA reports any port's state, rights, counts, default segment and last-refusal record, and changes nothing but the
caller's response; a port above 3 is BAD_ARGUMENT. -/
def Obligations.PstaReportsPort : Prop :=
  ∀ (p : Port) (s : State), s.ports[p].ctx = .idle →
    (∀ q : Port, ∃ ctx seg rights reason addr dir entry : Byte,
      exec (.psta p (portByte q)) s = .next (s.respond p .ok 0x50#8
        [portByte q, ctx, seg, rights, BitVec.ofNat 8 s.rights[q].quota, BitVec.ofNat 8 (s.leaseCount q),
          segOrAbsent s.defaults[q], BitVec.ofNat 8 s.notices[q].records.length, BitVec.ofNat 8 s.notices[q].lost,
          reason, addr, dir, entry, BitVec.ofNat 8 s.ports[q].refusalCount]) ∧
      (match s.ports[q].ctx with
        | .idle => ctx = 0x00#8 ∧ seg = 0xFF#8
        | .waiting t => ctx = 0x01#8 ∧ seg = segByte t.snap.seg
        | .addressing t => ctx = 0x02#8 ∧ seg = segByte t.snap.seg
        | .relayWrite t => ctx = 0x03#8 ∧ seg = segByte t.snap.seg
        | .relayRead t => ctx = 0x04#8 ∧ seg = segByte t.snap.seg
        | .broken t => ctx = 0x05#8 ∧ seg = segByte t.snap.seg
        | .commandIn => ctx = 0x06#8 ∧ seg = 0xFF#8
        | .responseOut .. => ctx = 0x07#8 ∧ seg = 0xFF#8) ∧
      rights.getLsbD 0 = s.rights[q].rights.route ∧ rights.getLsbD 1 = s.rights[q].rights.lease ∧
      rights.getLsbD 2 = s.rights[q].rights.segment ∧ rights.getLsbD 3 = s.rights[q].rights.admin ∧ rights.toNat < 16 ∧
      (s.ports[q].lastRefusal = none → reason = 0x00#8 ∧ addr = 0xFF#8 ∧ dir = 0xFF#8 ∧ entry = 0xFF#8) ∧
      (∀ x, s.ports[q].lastRefusal = some x → reason = x.reason.code ∧ addr = x.vaddr.setWidth 8 ∧
        (x.dir = .write → dir = 0x00#8) ∧ (x.dir = .read → dir = 0x01#8) ∧ entry = entryOrAbsent x.entry)) ∧
    (∀ b : Byte, 3 < b.toNat → exec (.psta p b) s = .next (s.respond p .badArgument 0x50#8 []))

/-- R150: RGHT sets the rights and the quota of the named row and reports them with the port's count of lease records; it is
refused with LAST_ADMIN exactly when the new set leaves out ADMIN and no other port holds it. Nothing else changes. A caller without ADMIN reads DENIED; a port above 3, a right outside the four or
a quota above 16 BAD_ARGUMENT. -/
def Obligations.RghtSetsRow : Prop :=
  (∀ (p : Port) (a b c : Byte) (s : State), s.ports[p].ctx = .idle →
    (s.rights[p].rights.admin = false → exec (.rght p a b c) s = .next (s.respond p .denied 0x51#8 [])) ∧
    (s.rights[p].rights.admin = true → 3 < a.toNat ∨ 15 < b.toNat ∨ 16 < c.toNat →
      exec (.rght p a b c) s = .next (s.respond p .badArgument 0x51#8 []))) ∧
  ∀ (p q : Port) (r : Rights) (n : Nat) (s : State), s.ports[p].ctx = .idle → s.rights[p].rights.admin = true → n ≤ 16 →
    let run := exec (.rght p (portByte q) r.byte (BitVec.ofNat 8 n)) s
    let last := r.admin = false ∧ ∀ k : Port, k ≠ q → s.rights[k].rights.admin = false
    (last → run = .next (s.respond p .lastAdmin 0x51#8 [])) ∧
    (¬ last → run = .next ({ s with rights := s.rights.set q { rights := r, quota := n } }.respond p .ok 0x51#8
      [portByte q, r.byte, BitVec.ofNat 8 n, BitVec.ofNat 8 (s.leaseCount q)]))

/-- R21, R68, R122, R129, R140, R153: PRST of `q`. Every lease record of `q` goes; on an entry that `q` held, the oldest request is
promoted with its requested duration clipped to the max lease and a token of no other HELD record, its port is told LEASE_GRANTED
in ascending order of entries, and the requests behind it move one place forward; behind a request of `q` they move forward too;
every other record and queue stays, and the token counter moves past the last token issued alone. `q`'s queue holds PORT_RESET
alone, under the next sequence number and naming the issuer, and its refusal record is cleared; the issuer reads OK with the
number of records freed. Taken on another port it leaves `q` IDLE and passive with its response record NONE, its frame buffer
empty and no place at any arbiter: out of the grant queue, out of its recovery, or with its segment released, and no other port
or segment is touched but by that release. Taken on `q` itself it leaves the rest of every context and segment as it was. That the
promotions inside the reset move the token counter, which the reset itself leaves, is the model's reading (log entry 26). -/
def Obligations.PrstResetsPort : Prop :=
  ∀ (p q : Port) (s : State), s.ports[p].ctx = .idle → (q = p ∨ s.rights[p].rights.admin = true) →
    LeaseLaw s → RelayLaw s → BufferLaw s →
    let issued := allEntries.filter (fun e => match s.heldOn e with
      | some (_, h) => h.port = q && (s.pendingAt e 1).isSome
      | none => false)
    let toPort := fun (k : Port) (e : EntryIx) => match s.pendingAt e 1 with
      | some (_, l) => decide (l.port = k)
      | none => false
    let cleared := s.onPort q (fun h => { h.atRest false with lastRefusal := none, refusalCount := 0 })
    ∃ t : State, exec (.prst p (portByte q)) s = .next t ∧
      (∀ (i : Slot) (l : Lease), t.leases[i] = some l → l.port ≠ q) ∧
      (∀ i : Slot, s.leases[i] = none → t.leases[i] = none) ∧
      (∀ (i : Slot) (l : Lease), s.leases[i] = some l → l.port ≠ q →
        ((∀ (j : Slot) (k : Lease), s.leases[j] = some k → k.entry = l.entry → k.port ≠ q) → t.leases[i] = some l) ∧
        (∀ (j : Slot) (k : Lease), s.leases[j] = some k → k.entry = l.entry → k.port = q →
          (k.isHeld = true →
            (l.order = 1 → ∀ r, s.directory[l.entry].route = some r → ∃ token : Byte,
              t.leases[i] = some { l with status := .held token (min l.requested r.maxLease * Config.ticksPerMs) } ∧
              ∀ (a : Slot) (x : Lease), s.leases[a] = some x → x.isHeld = true → x.port ≠ q → x.token ≠ token) ∧
            (1 < l.order → t.leases[i] = some { l with status := .pending (l.order - 1) })) ∧
          (k.isHeld = false →
            t.leases[i] = some (if k.order < l.order then { l with status := .pending (l.order - 1) } else l)))) ∧
      t.notices[q] = { records := [{ kind := .portReset p, seq := s.notices[q].seq + 1#8, entry := none, seg := none,
                                     token := 0#8 }]
                       seq := s.notices[q].seq + 1#8, lost := 0, alert := true } ∧
      (∀ k : Port, k ≠ q → t.notices[k] = (issued.filter (toPort k)).foldl (fun n e => n.store .leaseGranted (some e) (s.segOf e)
        (match t.heldOn e with
          | some (_, l) => l.token
          | none => 0#8)) s.notices[k]) ∧
      t.tokenCounter = (match issued.getLast? with
        | some e => (match t.heldOn e with
          | some (_, l) => if l.token = 255#8 then 1#8 else l.token + 1#8
          | none => 0#8)
        | none => s.tokenCounter) ∧
      t.responses[p] = { status := .ok, echo := 0x52#8, payload := [portByte q, BitVec.ofNat 8 (s.leaseCount q)] } ∧
      (q ≠ p →
        t.ports[q] = { (s.ports[q]).atRest false with lastRefusal := none, refusalCount := 0 } ∧
        t.responses[q] = { status := .noCommand, echo := 0x00#8, payload := [] } ∧
        t.buffers[q] = { bytes := [], overlong := false } ∧
        (∀ m : Seg, t.segs[m].state ≠ .active q ∧ t.segs[m].state ≠ .recovering (some q) ∧ q ∉ t.segs[m].queue) ∧
        ∃ u : State, t.ports = u.ports ∧ t.segs = u.segs ∧ t.engines = u.engines ∧
          (∀ x, s.ports[q].ctx = .waiting x → u = cleared.onSeg x.snap.seg (fun a =>
            { a with queue := a.queue.erase q, waits := a.waits.set q .stopped })) ∧
          (∀ x, s.ports[q].ctx = .addressing x →
            (∀ r, s.segs[x.snap.seg].state = .recovering r → u = cleared.onSeg x.snap.seg (fun a =>
              { a with state := .recovering none, waits := a.waits.set q .stopped })) ∧
            (s.segs[x.snap.seg].state = .active q → u = cleared.release x.snap.seg q)) ∧
          (∀ x, s.ports[q].ctx = .relayWrite x ∨ s.ports[q].ctx = .relayRead x → u = cleared.release x.snap.seg q) ∧
          (s.ports[q].ctx = .idle ∨ (∃ x, s.ports[q].ctx = .broken x) ∨ s.ports[q].ctx = .commandIn ∨
            (∃ n c, s.ports[q].ctx = .responseOut n c) → u = cleared)) ∧
      (q = p → t.ports = s.ports.set q { s.ports[q] with lastRefusal := none, refusalCount := 0 } ∧ SegmentsSame s t) ∧
      (∀ k : Port, k ≠ q → k ≠ p → t.responses[k] = s.responses[k]) ∧
      (∀ k : Port, k ≠ q → t.buffers[k] = s.buffers[k]) ∧
      (∀ m : Seg, t.segs[m].enable = s.segs[m].enable ∧ t.segs[m].shared = s.segs[m].shared ∧
        t.segs[m].waitLimit = s.segs[m].waitLimit ∧ t.segs[m].holdLimit = s.segs[m].holdLimit ∧
        t.segs[m].lossCount = s.segs[m].lossCount ∧ t.segs[m].recoveryCount = s.segs[m].recoveryCount) ∧
      SettingsSame s t

/-- R156: IDNT identifies the part and changes nothing but the caller's response. -/
def Obligations.IdntIdentifiesPart : Prop :=
  ∀ (p : Port) (s : State), s.ports[p].ctx = .idle →
    exec (.idnt p) s = .next (s.respond p .ok 0x53#8
      [0xD7#8, 0x48#8, 0x01#8, 4#8, 8#8, 48#8, 16#8, 0x2C#8 + s.adr.setWidth 8, s.admSel.setWidth 8])

/-! ### Host buses -/

/-- R12: a port whose clock the part holds takes no start, stop, byte or answer of its host: no such event can occur, and each
is refused by name (log entry 5). -/
def Obligations.ClockHeldPortsTakeNoEvent : Prop :=
  ∀ (p : Port) (s : State), s.ports[p].clockHeld = true →
    exec (.start p) s = .refused .hostClockHeld ∧ exec (.repeatedStart p) s = .refused .hostClockHeld ∧
    exec (.stop p) s = .refused .hostClockHeld ∧ exec (.hostAcknowledge p) s = .refused .hostClockHeld ∧
    exec (.hostNotAcknowledge p) s = .refused .hostClockHeld ∧
    (∀ b, exec (.dataByte p b) s = .refused .hostClockHeld) ∧
    ∀ a d, exec (.addressByte p a d) s = .refused .hostClockHeld

/-- R3, R8, R13, R14, R15, R17: a start or repeated start, with the clock released: a port in IDLE, BROKEN or RESPONSE_OUT
becomes IDLE with an address byte expected; a port that relays keeps its transfer and segment, expects an address byte, and its
abandon timer starts again. Nothing else changes. That a start outside IDLE is a repeated start is the model's reading (log entry
20). -/
def Obligations.StartConditionsTaken : Prop :=
  ∀ (p : Port) (i : Instr) (s : State), i = .start p ∨ i = .repeatedStart p → s.ports[p].clockHeld = false →
    (s.ports[p].ctx = .idle ∨ (∃ t, s.ports[p].ctx = .broken t) ∨ (∃ n c, s.ports[p].ctx = .responseOut n c) →
      exec i s = .next (s.onPort p (HostPort.atRest true))) ∧
    (∀ t, s.ports[p].ctx = .relayWrite t ∨ s.ports[p].ctx = .relayRead t →
      exec i s = .next (s.onPort p (fun h => { h with addrExpected := true, abandon := freshAbandon, upstream := [] })))

/-- R3, R8, R13, R14, R17, R82, R86: a stop, with the clock released: a port in IDLE, BROKEN or RESPONSE_OUT becomes IDLE and
passive and nothing else changes; a port that relays becomes IDLE and passive and its segment is released; where the segment
has no queue and no disable pending it becomes IDLE, its engine driving a not-acknowledge first where a read byte's slot is
open, and then the stop. That the not-acknowledge and the stop are driven in this event is the model's reading (log entry 16).
-/
def Obligations.StopsTaken : Prop :=
  ∀ (p : Port) (s : State), s.ports[p].clockHeld = false →
    (s.ports[p].ctx = .idle ∨ (∃ t, s.ports[p].ctx = .broken t) ∨ (∃ n c, s.ports[p].ctx = .responseOut n c) →
      exec (.stop p) s = .next (s.onPort p (HostPort.atRest false))) ∧
    (∀ t, s.ports[p].ctx = .relayWrite t ∨ s.ports[p].ctx = .relayRead t →
      let m := t.snap.seg
      exec (.stop p) s = .next ((s.onPort p (HostPort.atRest false)).release m p) ∧
      (s.segs[m].queue = [] → s.segs[m].disablePending = false → s.engines[m].isClosing = false →
        (s.engines[m].state = .writing ∨ s.engines[m].state = .reading) → s.engines[m].activity ≠ .clocking →
        (s.engines[m].state = .writing → s.engines[m].activity = .none) →
        exec (.stop p) s = .next (((s.onPort p (HostPort.atRest false)).onSeg m (fun a =>
            { a with state := .idle, queue := [], waits := a.waits.set p .stopped })).onEngine m (fun e =>
            { e with state := .stopping, served := none, activity := .none, closing := false, discarding := false,
                     bus := if e.activity = .slotOpen then [.notAcknowledge, .stop] else [.stop] }))))

/-- R3, R4, R6, R8: an address byte on an IDLE or BROKEN port that expects one, whose address is no relay address. A reserved
or unmatched address leaves the port IDLE and passive; the own address is acknowledged: a write enters COMMAND_IN with an empty
buffer, a read enters RESPONSE_OUT and is supplied the status code. On an IDLE port that expects none the byte is ignored. -/
def Obligations.AddressByteClassified : Prop :=
  ∀ (p : Port) (a : Addr) (d : Dir) (s : State), s.ports[p].clockHeld = false →
    ((s.ports[p].ctx = .idle ∨ ∃ t, s.ports[p].ctx = .broken t) → s.ports[p].addrExpected = true →
      ((a.toNat ≤ 0x07 ∨ 0x78 ≤ a.toNat ∨ a ≠ s.ownAddr ∧ s.resolve p a = none) →
        exec (.addressByte p a d) s = .next (s.onPort p (HostPort.atRest false))) ∧
      (a = s.ownAddr → 0x07 < a.toNat → a.toNat < 0x78 →
        (d = .write → exec (.addressByte p a d) s =
          .next ((s.onPort p (fun h => { h.atRest false with
              ctx := .commandIn, abandon := freshAbandon, upstream := [.acknowledge] })).onBuffer p
            (fun _ => { bytes := [], overlong := false }))) ∧
        (d = .read → exec (.addressByte p a d) s =
          .next (s.onPort p (fun h => { h.atRest false with
              ctx := .responseOut 0 false, abandon := freshAbandon
              upstream := [.acknowledge, .supply s.responses[p].status.code] }))))) ∧
    (s.ports[p].ctx = .idle → s.ports[p].addrExpected = false →
      exec (.addressByte p a d) s = .next (s.onPort p (HostPort.atRest false)))

/-- R24, R25: in a lawful directory, a port's address in the visible range of an entry the port sees resolves to that entry, its
generation, its segment and its translated target; any other address resolves to the port's default segment, untranslated, or to
nothing. -/
def Obligations.ResolutionFindsEntry : Prop :=
  ∀ (p : Port) (a : Addr) (s : State), DirectoryLaw s →
    (∀ (e : EntryIx) (r : Route), s.directory[e].route = some r → hasPort r.vis p = true → inRange r.vbase r.span a = true →
      ∃ x : Addr, s.resolve p a = some { entry := some (e, s.directory[e].gen), seg := r.seg, target := x } ∧
        x.toNat = r.tbase.toNat + (a.toNat - r.vbase.toNat) ∧ inRange r.tbase r.span x = true) ∧
    ((∀ (e : EntryIx) (r : Route), s.directory[e].route = some r → hasPort r.vis p = true → inRange r.vbase r.span a = false) →
      s.resolve p a = (s.defaults[p]).map (fun m => { entry := none, seg := m, target := a }))

/-- R44, R45, R47, R48, R50, R51: the checks at arrival and at grant, in their order. Through an entry: at grant first
ROUTE_GONE; then write protection, another port's lease, the EXCLUSIVE mode without a lease; at arrival then the segment's
state. Default-routed: ROUTED_ELSEWHERE in an installed target range of the segment; at arrival then the segment's state. -/
def Obligations.AdmissionDecidesInOrder : Prop :=
  ∀ (p : Port) (d : Dir) (m : Seg) (x : Addr) (s : State),
    let segment : Option Reason := match s.segs[m].state with
      | .disabled => some .segmentDisabled
      | .fault => some .segmentFault
      | _ => none
    (∀ (e : EntryIx) (g : BitVec 8) (r : Route), s.directory[e].route = some r →
      let lease : Option Reason := match s.heldOn e with
        | some (_, l) => if l.port = p then none else some .leasedElsewhere
        | none => if r.mode = .exclusive then some .leaseRequired else none
      let entry : Option Reason := if d = .write ∧ hasPort r.wp p = true then some .writeProtected else lease
      s.checkAtArrival p d { entry := some (e, g), seg := m, target := x } = entry.or segment ∧
      s.checkAtGrant p d { entry := some (e, g), seg := m, target := x } =
        (if s.directory[e].gen ≠ g ∨ hasPort r.vis p = false then some .routeGone else entry)) ∧
    (∀ (e : EntryIx) (g : BitVec 8), s.directory[e].route = none →
      s.checkAtGrant p d { entry := some (e, g), seg := m, target := x } = some .routeGone) ∧
    ((∃ (e : EntryIx) (r : Route), s.directory[e].route = some r ∧ r.seg = m ∧ inRange r.tbase r.span x = true) →
      s.checkAtArrival p d { entry := none, seg := m, target := x } = some .routedElsewhere ∧
      s.checkAtGrant p d { entry := none, seg := m, target := x } = some .routedElsewhere) ∧
    ((∀ (e : EntryIx) (r : Route), s.directory[e].route = some r → r.seg = m → inRange r.tbase r.span x = false) →
      s.checkAtArrival p d { entry := none, seg := m, target := x } = segment ∧
      s.checkAtGrant p d { entry := none, seg := m, target := x } = none)

/-- R9, R20, R54, R58, R59: a relay address on an IDLE or BROKEN port that expects an address byte. Refused at arrival, the port
is turned away with the reason. Accepted on an IDLE segment, the port becomes its holder in ADDRESSING and the engine has its
order; on an ACTIVE one, or on a RECOVERING one with fewer than 3 ports queued, the port joins the tail of the queue in WAITING;
in each case its wait timer starts with the segment's wait limit. On a RECOVERING one with 3 ports queued it is turned away with
WAIT_EXPIRED. Nothing else changes. -/
def Obligations.RelayAddressOutcomes : Prop :=
  ∀ (p : Port) (a : Addr) (d : Dir) (n : Snapshot) (s : State),
    s.ports[p].clockHeld = false → (s.ports[p].ctx = .idle ∨ ∃ t, s.ports[p].ctx = .broken t) →
    s.ports[p].addrExpected = true → 0x08 ≤ a.toNat → a.toNat ≤ 0x77 → a ≠ s.ownAddr → s.resolve p a = some n →
    let t : Transfer := { vaddr := a, dir := d, snap := n }
    let m := n.seg
    let run := exec (.addressByte p a d) s
    let timed := fun (b : Arbiter) => b.waits.set p (.running (b.waitLimit * Config.ticksPerMs) 0)
    (∀ r, s.checkAtArrival p d n = some r → run = .next (s.onPort p (HostPort.turnedAway r t))) ∧
    (s.checkAtArrival p d n = none →
      (s.segs[m].state = .idle →
        run = .next (((s.onSeg m (fun b => { b with state := .active p, waits := timed b })).onPort p
          (HostPort.stretching (.addressing t))).onEngine m (Engine.order p (some (n.target, d)) s.segs[m].shared))) ∧
      ((∃ h, s.segs[m].state = .active h) ∨ (∃ q, s.segs[m].state = .recovering q) ∧ s.segs[m].queue.length < 3 →
        run = .next ((s.onSeg m (fun b => { b with queue := b.queue ++ [p], waits := timed b })).onPort p
          (HostPort.stretching (.waiting t)))) ∧
      (∀ q, s.segs[m].state = .recovering q → 3 ≤ s.segs[m].queue.length →
        run = .next (s.onPort p (HostPort.turnedAway .waitExpired t))))

/-- R15, R88, R89: an address byte after a repeated start on a port that holds segment `m`. An address that resolves to `m` is
checked once: accepted, the port keeps the segment in ADDRESSING, its wait timer starts, and the engine closes an open read
slot and prepares a repeated start to the new target; refused, the port is turned away and the segment released. For any other
address the segment is released and the byte is then taken as on an IDLE port that expects it. That the closing not-acknowledge
is driven in this event is the model's reading (log entry 16). -/
def Obligations.AddressAfterRepeatedStart : Prop :=
  ∀ (p : Port) (a : Addr) (d : Dir) (t : Transfer) (s : State),
    s.ports[p].clockHeld = false → s.ports[p].ctx = .relayWrite t ∨ s.ports[p].ctx = .relayRead t →
    s.ports[p].addrExpected = true →
    let m := t.snap.seg
    let run := exec (.addressByte p a d) s
    let relayed := 0x08 ≤ a.toNat ∧ a.toNat ≤ 0x77 ∧ a ≠ s.ownAddr
    (∀ n, relayed → s.resolve p a = some n → n.seg = m →
      (s.checkAtArrival p d n = none →
        run = .next (((s.onSeg m (fun b => { b with waits := b.waits.set p (.running (b.waitLimit * Config.ticksPerMs) 0) })).onPort
          p (HostPort.stretching (.addressing { vaddr := a, dir := d, snap := n }))).onEngine m (fun e =>
            { e with state := .starting, target := some (n.target, d), retry := 0, activity := .none
                     bus := if e.activity = .slotOpen then [.notAcknowledge] else [] }))) ∧
      (∀ r, s.checkAtArrival p d n = some r →
        run = .next ((s.onPort p (HostPort.turnedAway r { vaddr := a, dir := d, snap := n })).release m p))) ∧
    (¬ relayed ∨ s.resolve p a = none ∨ (∃ n, s.resolve p a = some n ∧ n.seg ≠ m) →
      run = .next (((s.onPort p (HostPort.atRest false)).release m p).classify p a d))

/-- R3, R6, R13, R17, R81: a data byte, with the clock released. In COMMAND_IN it is stored and acknowledged while the buffer
holds fewer than 24 bytes, and otherwise marks the buffer overlong; in RELAY_WRITE it is handed to the engine, which clocks it,
and the clock is held for it; in BROKEN it is refused with BROKEN; in IDLE it is ignored. An answered byte starts the abandon
timer again. Nothing else changes. -/
def Obligations.DataBytesTaken : Prop :=
  ∀ (p : Port) (b : Byte) (s : State), s.ports[p].clockHeld = false →
    (s.ports[p].ctx = .commandIn →
      (s.buffers[p].bytes.length < 24 →
        exec (.dataByte p b) s = .next ((s.onBuffer p (fun f => { f with bytes := f.bytes ++ [b] })).onPort p
          (fun h => { h with abandon := freshAbandon, upstream := [.acknowledge] }))) ∧
      (24 ≤ s.buffers[p].bytes.length →
        exec (.dataByte p b) s = .next ((s.onBuffer p (fun f => { f with overlong := true })).onPort p
          (fun h => { h with abandon := freshAbandon, upstream := [] })))) ∧
    (∀ t, s.ports[p].ctx = .relayWrite t → s.ports[p].addrExpected = false →
      s.engines[t.snap.seg].served = some p → s.engines[t.snap.seg].state = .writing →
      s.engines[t.snap.seg].activity = .none → s.engines[t.snap.seg].isClosing = false →
      exec (.dataByte p b) s = .next ((s.onPort p (fun h =>
          { h with byteInHand := true, clockHeld := true, abandon := .stopped, upstream := [] })).onEngine t.snap.seg
        (fun e => { e with activity := .clocking, bus := [.write b] }))) ∧
    (∀ t, s.ports[p].ctx = .broken t → t.dir = .write → s.ports[p].addrExpected = false →
      exec (.dataByte p b) s = .next (s.onPort p (fun h =>
        { h.refusedWith .broken t with abandon := freshAbandon, upstream := [] }))) ∧
    (s.ports[p].ctx = .idle → exec (.dataByte p b) s = .next (s.onPort p (fun h => { h with upstream := [] })))

/-- R3, R8, R14, R17, R84, R85: the host's answer to a supplied byte, with the clock released. In RESPONSE_OUT an acknowledge is
supplied the next byte of the response and a not-acknowledge ends the supply; in RELAY_READ with a slot open an acknowledge is
passed on and the next byte fetched, with the clock held for it, and a not-acknowledge is passed on and closes the read; in
BROKEN and IDLE nothing is driven. Nothing else changes. What an answer does after the host's not-acknowledge, in RESPONSE_OUT or
in RELAY_READ with read closed, is the model's reading (log entry 19): it starts the abandon timer again and nothing is supplied. -/
def Obligations.HostAnswersTaken : Prop :=
  ∀ (p : Port) (s : State), s.ports[p].clockHeld = false →
    let quiet := s.onPort p (fun h => { h with abandon := freshAbandon, upstream := [] })
    (∀ n, s.ports[p].ctx = .responseOut n false →
      exec (.hostAcknowledge p) s = .next (s.onPort p (fun h =>
        { h with ctx := .responseOut (n + 1) false, abandon := freshAbandon
                 upstream := [.supply (([s.responses[p].status.code, s.responses[p].echo,
                   BitVec.ofNat 8 s.responses[p].payload.length] ++ s.responses[p].payload).getD (n + 1) 0xFF#8)] }))) ∧
    (∀ n c, s.ports[p].ctx = .responseOut n c →
      exec (.hostNotAcknowledge p) s = .next (s.onPort p (fun h =>
        { h with ctx := .responseOut n true, abandon := freshAbandon, upstream := [] })) ∧
      (c = true → exec (.hostAcknowledge p) s = .next quiet)) ∧
    (∀ t, s.ports[p].ctx = .relayRead t → s.ports[p].addrExpected = false → s.ports[p].readClosed = false →
      s.engines[t.snap.seg].served = some p → s.engines[t.snap.seg].state = .reading →
      s.engines[t.snap.seg].activity = .slotOpen → s.engines[t.snap.seg].isClosing = false →
      exec (.hostAcknowledge p) s = .next ((s.onPort p (fun h =>
          { h with byteInHand := true, clockHeld := true, abandon := .stopped, upstream := [] })).onEngine t.snap.seg
        (fun e => { e with activity := .clocking, bus := [.acknowledge, .fetch] })) ∧
      exec (.hostNotAcknowledge p) s = .next ((s.onPort p (fun h =>
          { h with readClosed := true, abandon := freshAbandon, upstream := [] })).onEngine t.snap.seg
        (fun e => { e with activity := .none, bus := [.notAcknowledge] }))) ∧
    (∀ t, s.ports[p].ctx = .relayRead t → s.ports[p].addrExpected = false → s.ports[p].readClosed = true →
      exec (.hostAcknowledge p) s = .next quiet ∧ exec (.hostNotAcknowledge p) s = .next quiet) ∧
    (∀ t, s.ports[p].ctx = .broken t → t.dir = .read → s.ports[p].addrExpected = false →
      exec (.hostAcknowledge p) s = .next quiet ∧ exec (.hostNotAcknowledge p) s = .next quiet) ∧
    (s.ports[p].ctx = .idle →
      exec (.hostAcknowledge p) s = .next (s.onPort p (fun h => { h with upstream := [] })) ∧
      exec (.hostNotAcknowledge p) s = .next (s.onPort p (fun h => { h with upstream := [] })))

/-! ### Expiries -/

/-- R19: an abandon timer that reaches its limit leaves the port IDLE and passive and posts MESSAGE_ABANDONED to it, with the
snapshot's entry and segment where there is a transfer: in a relay state the segment is released, in COMMAND_IN the frame is
discarded, in BROKEN and RESPONSE_OUT nothing more happens. No refusal is recorded. -/
def Obligations.AbandonExpiryEndsEngagement : Prop :=
  ∀ (p : Port) (s : State), s.ports[p].abandon ≠ .stopped →
    let told := fun (t : State) (e : Option EntryIx) (m : Option Seg) =>
      t.onNotices p (NoticeQueue.store .messageAbandoned e m 0#8)
    let rest := s.onPort p (HostPort.atRest false)
    (∀ t, s.ports[p].ctx = .relayWrite t ∨ s.ports[p].ctx = .relayRead t →
      exec (.abandonExpiry p) s =
        .next (told (rest.release t.snap.seg p) (t.snap.entry.map Prod.fst) (some t.snap.seg))) ∧
    (∀ t, s.ports[p].ctx = .broken t →
      exec (.abandonExpiry p) s = .next (told rest (t.snap.entry.map Prod.fst) (some t.snap.seg))) ∧
    (s.ports[p].ctx = .commandIn →
      exec (.abandonExpiry p) s = .next (told (rest.onBuffer p (fun _ => { bytes := [], overlong := false })) none none)) ∧
    (∀ n c, s.ports[p].ctx = .responseOut n c → exec (.abandonExpiry p) s = .next (told rest none none))

/-- R60, R61: a wait that expires turns its port away with WAIT_EXPIRED and stops its wait timer: in WAITING the port leaves its
queue, as resume port it leaves the recovery, and as holder its segment is released. Without a running wait timer no expiry can
occur, and the row is refused by name (log entry 5). -/
def Obligations.WaitExpiryRefusesPort : Prop :=
  ∀ (p : Port) (t : Transfer) (s : State),
    let m := t.snap.seg
    let running := s.segs[m].waits[p] ≠ .stopped
    let run := exec (.waitExpiry p) s
    (s.ports[p].ctx = .waiting t → running →
      run = .next ((s.onSeg m (fun a => { a with queue := a.queue.erase p, waits := a.waits.set p .stopped })).onPort p
        (HostPort.turnedAway .waitExpired t))) ∧
    (s.ports[p].ctx = .addressing t → running →
      (∀ q, s.segs[m].state = .recovering q →
        run = .next ((s.onSeg m (fun a =>
            { a with state := .recovering none, waits := a.waits.set p .stopped })).onPort p
          (HostPort.turnedAway .waitExpired t))) ∧
      ((∀ q, s.segs[m].state ≠ .recovering q) →
        run = .next ((s.onPort p (HostPort.turnedAway .waitExpired t)).release m p))) ∧
    (s.ports[p].ctx = .waiting t ∨ s.ports[p].ctx = .addressing t → s.segs[m].waits[p] = .stopped →
      run = .refused .timerNotRunning)

/-! ### Arbiters and engines -/

/-- R63: a hand-over of a segment whose queued ports are in WAITING for it. With a disable pending the segment becomes DISABLED,
the flag is cleared and every queued port is turned away with SEGMENT_DISABLED; otherwise the ports are taken in arrival order,
each that the check at grant refuses is turned away with its reason, the first that it accepts becomes holder in ADDRESSING with
its wait timer still running and its address phase ordered, and without one the segment becomes IDLE. No other port, no other
segment and no table is touched. -/
def Obligations.HandOverServesQueueInOrder : Prop :=
  ∀ (m : Seg) (s : State), s.segs[m].queue.Nodup →
    (∀ q ∈ s.segs[m].queue, ∃ t, s.ports[q].ctx = .waiting t ∧ t.snap.seg = m) →
    let u := s.handOver m
    let stays := fun (q : Port) => u.ports[q] = s.ports[q] ∧ u.segs[m].waits[q] = s.segs[m].waits[q]
    let away := fun (q : Port) (r : Reason) => u.segs[m].waits[q] = .stopped ∧
      ∀ t, s.ports[q].ctx = .waiting t → u.ports[q] = (s.ports[q]).turnedAway r t
    let verdict := fun (q : Port) (r : Option Reason) => ∀ t, s.ports[q].ctx = .waiting t → s.checkAtGrant q t.dir t.snap = r
    (∀ k : Seg, k ≠ m → u.segs[k] = s.segs[k] ∧ u.engines[k] = s.engines[k]) ∧
    (∀ q : Port, q ∉ s.segs[m].queue → stays q) ∧
    SettingsSame s u ∧ LeasesSame s u ∧ FramesSame s u ∧ u.notices = s.notices ∧
    (s.segs[m].disablePending = true →
      u.segs[m].state = .disabled ∧ u.segs[m].disablePending = false ∧ u.segs[m].queue = [] ∧
      u.engines[m] = s.engines[m] ∧ ∀ q ∈ s.segs[m].queue, away q .segmentDisabled) ∧
    (s.segs[m].disablePending = false → u.segs[m].disablePending = false ∧
      ∃ refused behind : List Port, s.segs[m].queue = refused ++ behind ∧
        (∀ q ∈ refused, ∃ r, verdict q (some r) ∧ away q r) ∧
        ((behind = [] ∧ u.segs[m].state = .idle ∧ u.segs[m].queue = [] ∧ u.engines[m] = s.engines[m]) ∨
          ∃ (p : Port) (t : Transfer) (rest : List Port), behind = p :: rest ∧ s.ports[p].ctx = .waiting t ∧
            verdict p none ∧ u.segs[m].state = .active p ∧ u.segs[m].queue = rest ∧
            u.ports[p] = (s.ports[p]).stretching (.addressing t) ∧ u.segs[m].waits[p] = s.segs[m].waits[p] ∧
            (∀ q ∈ rest, stays q) ∧
            u.engines[m] = (s.engines[m]).order p (some (t.snap.target, t.dir)) s.segs[m].shared))

/-- R76, R82, R85, R86, R90, R93, R97: how an engine takes the order of an address phase and the end of its service, by its
state. An order makes the port served with the retry count 0; from QUIET it enters STARTING with bus owned no and samples the
shared flag; behind a closing the target of the closing is kept. An end of service drives the stop where no byte is clocking,
after a not-acknowledge where a read slot is open, and otherwise marks the byte for closing. That a not-acknowledge before a
stop is driven in the same event is the model's reading (log entry 16), as is when an engine in STOPPING copies the target (log
entry 24). -/
def Obligations.EngineTakesOrdersAndEnds : Prop :=
  ∀ (e : Engine) (p : Port) (a : Addr) (d : Dir) (sh : Bool),
    (e.isClosing = false → e.state = .quiet →
      e.order p (some (a, d)) sh = { e with state := .starting, served := some p, target := some (a, d), busOwned := false,
                                            activity := .none, retry := 0, sharedMode := sh }) ∧
    (e.isClosing = false → e.state = .starting ∨ e.state = .stopping →
      e.order p (some (a, d)) sh = { e with served := some p, target := some (a, d), retry := 0 }) ∧
    (e.isClosing = true → e.order p (some (a, d)) sh = { e with served := some p, retry := 0 }) ∧
    (e.isClosing = false →
      (e.state = .writing ∨ e.state = .reading → e.activity = .none →
        e.endService = { e with state := .stopping, served := none, bus := [.stop] }) ∧
      (e.state = .reading → e.activity = .slotOpen →
        e.endService = { e with state := .stopping, served := none, activity := .none, bus := [.notAcknowledge, .stop] }) ∧
      (e.state = .address ∨ (e.state = .writing ∨ e.state = .reading) ∧ e.activity = .clocking →
        e.endService = { e with served := none, closing := true }) ∧
      (e.state = .starting → e.busOwned = true → e.activity = .none →
        e.endService = { e with state := .stopping, served := none, bus := [.stop] }) ∧
      (e.state = .starting → e.busOwned = false →
        (e.endService).settle = { e with state := .quiet, served := none, target := none, busOwned := false,
                                         activity := .none, closing := false, discarding := false, hold := .stopped }) ∧
      (e.state = .stopping → e.endService = { e with served := none }))

/-- R11, R59, R77 to R80, R97, R99: the address phase. A line check that passes, in shared mode with the foreign-busy flag clear
for a start, stops the hold timer and drives the start, or the repeated start where the bus is owned, and the target with its
direction; in shared mode the attempt is counted. The target's acknowledge stops the port's wait timer and is given upstream: a
write enters RELAY_WRITE, a read RELAY_READ with its first byte being fetched and the clock held for it. Its not-acknowledge
turns the port away with TARGET_NACK, drives the stop and releases the segment. Two clauses are the model's: that the attempt is
counted in shared mode alone (log entry 14), and that a line check reported clear in shared mode while the foreign-busy flag is
set is an event that cannot occur and is refused by name (log entry 5). -/
def Obligations.AddressPhaseRuns : Prop :=
  ∀ (m : Seg) (s : State),
    (∀ a d, s.engines[m].state = .starting → s.engines[m].target = some (a, d) →
      (s.engines[m].busOwned = true ∨ s.engines[m].sharedMode = false ∨ s.engines[m].foreignBusy = false) →
      exec (.lineCheckPassed m) s = .next (s.onEngine m (fun e =>
        { e with state := .address, busOwned := true, activity := .clocking, hold := .stopped,
                 retry := if e.sharedMode = true then e.retry + 1 else e.retry
                 bus := [if e.busOwned = true then .repeatedStart else .start, .address a d] }))) ∧
    (s.engines[m].state = .starting → s.engines[m].busOwned = false → s.engines[m].sharedMode = true →
      s.engines[m].foreignBusy = true → exec (.lineCheckPassed m) s = .refused .engineNotAtStep) ∧
    (∀ p t, s.engines[m].state = .address → s.engines[m].activity = .clocking → s.engines[m].isClosing = false →
      s.engines[m].served = some p → s.ports[p].ctx = .addressing t →
      (t.dir = .write →
        exec (.targetAcknowledgesAddress m) s =
          .next (((s.onSeg m (fun b => { b with waits := b.waits.set p .stopped })).onPort p (fun h =>
              { h with ctx := .relayWrite t, byteInHand := false, clockHeld := false, abandon := freshAbandon
                       upstream := [.acknowledge] })).onEngine m (fun e =>
              { e with state := .writing, activity := .none, hold := .stopped }))) ∧
      (t.dir = .read →
        exec (.targetAcknowledgesAddress m) s =
          .next (((s.onSeg m (fun b => { b with waits := b.waits.set p .stopped })).onPort p (fun h =>
              { h with ctx := .relayRead t, readClosed := false, byteInHand := true, clockHeld := true, abandon := .stopped
                       upstream := [.acknowledge] })).onEngine m (fun e =>
              { e with state := .reading, activity := .clocking, hold := .stopped, bus := [.fetch] }))) ∧
      exec (.targetNack m) s =
        .next ((((s.onPort p (HostPort.turnedAway .targetNack t)).onEngine m (fun e =>
            { e with state := .stopping, served := none, activity := .none, closing := false, discarding := false,
                     hold := .stopped, bus := [.stop] })).onSeg m (fun b =>
            { b with waits := b.waits.set p .stopped })).handOver m))

/-- R13, R14, R81, R83: a relayed byte. The target's answer to a write byte is given upstream as it is, acknowledge or not, and
the transfer goes on; a byte fetched is supplied as it is, its slot held open. Either way the port's clock is released, its byte
is no longer in hand, its abandon timer starts, and the engine's hold timer stops. Nothing else changes. -/
def Obligations.RelayedBytesAnswered : Prop :=
  ∀ (m : Seg) (p : Port) (t : Transfer) (s : State),
    s.engines[m].activity = .clocking → s.engines[m].isClosing = false → s.engines[m].served = some p →
    (s.engines[m].state = .writing → s.ports[p].ctx = .relayWrite t → ∀ acked : Bool,
      exec (.writeByteAnswered m acked) s = .next ((s.onPort p (fun h =>
          { h with byteInHand := false, clockHeld := false, abandon := freshAbandon
                   upstream := if acked = true then [.acknowledge] else [] })).onEngine m (fun e =>
          { e with activity := .none, hold := .stopped }))) ∧
    (s.engines[m].state = .reading → s.ports[p].ctx = .relayRead t → ∀ b : Byte,
      exec (.readByteFetched m b) s = .next ((s.onPort p (fun h =>
          { h with byteInHand := false, clockHeld := false, abandon := freshAbandon, upstream := [.supply b] })).onEngine m
        (fun e => { e with activity := .slotOpen, hold := .stopped })))

/-- R90, R91: the byte of a released transfer and the stop. A closing byte that finishes is discarded and the stop is driven,
after a not-acknowledge in the slot of a read byte; an acknowledged read address first has one byte fetched, which is discarded
in turn. A stop that completes clears bus owned, hold timer and target; a served port's start is prepared with its own target
and the shared flag sampled, and without one the engine is QUIET. The stop also clears a foreign-busy flag left on a segment whose
shared flag is clear: that the engine's own stop is such a stop is the model's reading of R96 (log entry 17). The
not-acknowledge before a stop is driven in the same event (log entry 16). Nothing else changes. -/
def Obligations.ClosingBytesAndStops : Prop :=
  ∀ (m : Seg) (s : State),
    let e := s.engines[m]
    let stopping := fun (acts : List BusAct) => Host.Outcome.next (ρ := Refusal) (φ := Fault) (s.onEngine m (fun e =>
      { e with state := .stopping, activity := .none, closing := false, discarding := false, hold := .stopped
               bus := acts ++ [.stop] }))
    (∀ acked : Bool, e.activity = .clocking → e.closing = true → e.discarding = false →
      (e.state = .writing → exec (.closingByteFinished m acked) s = stopping []) ∧
      (e.state = .reading → exec (.closingByteFinished m acked) s = stopping [.notAcknowledge]) ∧
      (∀ a d, e.state = .address → e.target = some (a, d) → (d = .write ∨ acked = false) →
        exec (.closingByteFinished m acked) s = stopping []) ∧
      (∀ a, e.state = .address → e.target = some (a, .read) → acked = true →
        exec (.closingByteFinished m acked) s = .next (s.onEngine m (fun e =>
          { e with state := .reading, activity := .clocking, closing := false, discarding := true, hold := .stopped
                   bus := [.fetch] })))) ∧
    (∀ acked : Bool, e.activity = .clocking → e.discarding = true →
      exec (.closingByteFinished m acked) s = stopping [.notAcknowledge]) ∧
    (e.state = .stopping →
      (∀ p t, e.served = some p → s.ports[p].ctx = .addressing t →
        exec (.stopComplete m) s = .next (s.onEngine m (fun e =>
          { e with state := .starting, busOwned := false, activity := .none, hold := .stopped
                   target := some (t.snap.target, t.dir), sharedMode := s.segs[m].shared
                   foreignBusy := e.foreignBusy && s.segs[m].shared }))) ∧
      (e.served = none →
        exec (.stopComplete m) s = .next (s.onEngine m (fun e =>
          { e with state := .quiet, busOwned := false, activity := .none, closing := false, discarding := false
                   hold := .stopped, target := none, foreignBusy := e.foreignBusy && s.segs[m].shared }))))

/-- R77, R92, R94, R95, R97, R102, R103: held lines, outside a recovery. A line found low where the engine needs it high (both
in STARTING, the clock while a byte is clocking, the clock and then the data line in STOPPING) is timed from zero with the hold
limit in force; its release stops that timing, and the other line's goes on. A hold that expires begins a recovery: in STARTING
and ADDRESS with the holder as resume port, in a data byte after breaking the holder with HOLD_EXPIRED, in STOPPING and while
closing with a new holder as resume port if there is one; on a DISABLED segment the engine only goes QUIET. The model's own
readings: each line is timed by itself (log entry 13); an expiry without a running timer cannot occur and is refused by name (log
entry 5); a hold at the discarded byte is one while closing, and the engine left QUIET on a DISABLED segment has its transfer
fields cleared (log entry 18). -/
def Obligations.HeldLinesAndHoldExpiry : Prop :=
  ∀ (m : Seg) (s : State),
    let e := s.engines[m]
    let run := exec (.holdTimerExpiry m) s
    let started : Timer := .running (s.segs[m].holdLimit * Config.ticksPerMs) 0
    let needsClock := e.state = .starting ∨ e.state = .stopping ∨
      (e.state = .address ∨ e.state = .writing ∨ e.state = .reading) ∧ e.activity = .clocking
    let needsData := e.state = .starting ∨ e.state = .stopping ∧ e.hold.clock = .stopped
    (needsClock → e.hold.clock = .stopped →
      exec (.lineHeld m .clock) s = .next (s.onEngine m (fun e => { e with hold := { e.hold with clock := started } }))) ∧
    (needsData → e.hold.data = .stopped →
      exec (.lineHeld m .data) s = .next (s.onEngine m (fun e => { e with hold := { e.hold with data := started } }))) ∧
    (e.state ≠ .recovering →
      (¬ needsClock ∨ e.hold.clock ≠ .stopped → exec (.lineHeld m .clock) s = .next s) ∧
      (¬ needsData ∨ e.hold.data ≠ .stopped → exec (.lineHeld m .data) s = .next s) ∧
      exec (.lineReleased m .clock) s = .next (s.onEngine m (fun e => { e with hold := { e.hold with clock := .stopped } })) ∧
      exec (.lineReleased m .data) s = .next (s.onEngine m (fun e => { e with hold := { e.hold with data := .stopped } }))) ∧
    (e.hold = .stopped → run = .refused .timerNotRunning) ∧
    (e.hold ≠ .stopped →
      (∀ p t, (e.state = .starting ∨ e.state = .address) → e.isClosing = false → s.segs[m].state = .active p →
        s.ports[p].ctx = .addressing t → run = .next (s.inRecovery m (some p) none)) ∧
      (∀ p t, (e.state = .writing ∨ e.state = .reading) → e.isClosing = false → e.served = some p →
        s.segs[m].state = .active p → s.ports[p].ctx = .relayWrite t ∨ s.ports[p].ctx = .relayRead t →
        run = .next ((s.afterBreak m p t .holdExpired).inRecovery m none (some p))) ∧
      (e.isClosing = true ∨ e.state = .stopping →
        (s.segs[m].state = .idle → run = .next (s.inRecovery m none none)) ∧
        (∀ p t, s.segs[m].state = .active p → s.ports[p].ctx = .addressing t →
          run = .next (s.inRecovery m (some p) none)) ∧
        (s.segs[m].state = .disabled →
          run = .next (s.onEngine m (fun x =>
            { x with state := .quiet, served := none, target := none, busOwned := false, activity := .none,
                     closing := false, discarding := false, hold := .stopped })))))

/-- R65, R66, R105 to R108: a recovery. A line held where a step needs it high is timed from zero: the clock at the look, after a
pulse, which is counted as it is released, and at the stop, and the data line at the stop once the clock is high; a release stops
the timing of its line. A pulse raises the pulse count once; the data line found high leads to the stop, low to the next pulse,
and low after the ninth the recovery fails, as it does when a line outlasts the hold limit. How the rows that follow the look say
what its test found is the model's reading (log entries 10 and 12). A success returns the
segment to its resume port, or hands it over; a failure turns every queued port and then the resume port away with SEGMENT_FAULT
and leaves the segment in FAULT, or with SEGMENT_DISABLED and DISABLED where a disable was pending. The engine is left driving
nothing with the foreign-busy flag clear, and the outcome is posted to the broken port and to every port with the SEGMENT right,
once each. -/
def Obligations.RecoveryRunsToItsEnd : Prop :=
  ∀ (m : Seg) (s : State), s.engines[m].state = .recovering →
    let e := s.engines[m]
    let quiet := fun (acts : List BusAct) (x : Engine) =>
      { x with state := .quiet, served := none, target := none, busOwned := false, activity := .none, closing := false,
               hold := .stopped, discarding := false, foreignBusy := false, bus := acts }
    let posted := fun (k : NoticeKind) (t u : State) => ∀ q : Port, t.notices[q] =
      if e.brokenPort = some q ∨ s.rights[q].rights.segment = true then (u.notices[q]).store k none (some m) 0#8
      else u.notices[q]
    let failed := fun (f : Engine → Engine) (r : Result) => ∃ t, r = .next t ∧ t.engines = tabUpd s.engines m f ∧
      (∀ k : Seg, k ≠ m → t.segs[k] = s.segs[k]) ∧ t.segs[m].queue = [] ∧ t.segs[m].disablePending = false ∧
      t.segs[m].state = (if s.segs[m].disablePending = true then .disabled else .fault) ∧
      t.segs[m].enable = s.segs[m].enable ∧ t.segs[m].shared = s.segs[m].shared ∧
      t.segs[m].waitLimit = s.segs[m].waitLimit ∧ t.segs[m].holdLimit = s.segs[m].holdLimit ∧
      t.segs[m].lossCount = s.segs[m].lossCount ∧ t.segs[m].recoveryCount = s.segs[m].recoveryCount ∧
      (∀ (q : Port) (x : Transfer), (q ∈ s.segs[m].queue ∧ s.ports[q].ctx = .waiting x) ∨
          (s.segs[m].state = .recovering (some q) ∧ s.ports[q].ctx = .addressing x) →
        t.ports[q] = (s.ports[q]).turnedAway
          (if s.segs[m].disablePending = true then .segmentDisabled else .segmentFault) x ∧
        t.segs[m].waits[q] = .stopped) ∧
      (∀ q : Port, q ∉ s.segs[m].queue → s.segs[m].state ≠ .recovering (some q) → t.ports[q] = s.ports[q]) ∧
      posted .segmentFault t s ∧ SettingsSame s t ∧ LeasesSame s t ∧ FramesSame s t
    let started : Timer := .running (s.segs[m].holdLimit * Config.ticksPerMs) 0
    let count := if e.recStep = .pulsing then e.pulses else e.pulses + 1
    (e.hold.clock = .stopped →
      (e.recStep ≠ .pulse →
        exec (.lineHeld m .clock) s = .next (s.onEngine m (fun x => { x with hold := { x.hold with clock := started } }))) ∧
      (e.recStep = .pulse → exec (.lineHeld m .clock) s = .next (s.onEngine m (fun x =>
        { x with hold := { x.hold with clock := started }, recStep := .pulsing, pulses := x.pulses + 1, bus := [.pulse] }))) ∧
      (e.recStep = .look →
        exec (.lineHeld m .data) s = .next (s.onEngine m (fun x => { x with recStep := .pulse })) ∧
        exec (.lineReleased m .data) s = .next (s.onEngine m (fun x => { x with recStep := .stop }))) ∧
      (e.recStep = .stop → e.hold.data = .stopped →
        exec (.lineHeld m .data) s = .next (s.onEngine m (fun x => { x with hold := { x.hold with data := started } })))) ∧
    (e.hold.clock ≠ .stopped → exec (.lineHeld m .clock) s = .next s ∧ exec (.lineHeld m .data) s = .next s) ∧
    (e.recStep = .pulse ∨ e.recStep = .pulsing ∨ e.hold.data ≠ .stopped ∧ e.recStep = .stop →
      exec (.lineHeld m .data) s = .next s) ∧
    exec (.lineReleased m .clock) s = .next (s.onEngine m (fun x => { x with hold := { x.hold with clock := .stopped } })) ∧
    (e.recStep ≠ .look ∨ e.hold.clock ≠ .stopped →
      exec (.lineReleased m .data) s = .next (s.onEngine m (fun x => { x with hold := { x.hold with data := .stopped } }))) ∧
    (∀ high : Bool, e.recStep = .pulsing ∨ e.recStep ≠ .stop ∧ e.pulses < 9 →
      ((high = true ∨ count < 9) →
        exec (.recoveryPulse m high) s = .next (s.onEngine m (fun x =>
          { x with pulses := count, hold := .stopped, recStep := if high = true then .stop else .pulse, bus := [.pulse] }))) ∧
      (s.segs[m].queue.Nodup → (∀ q, s.segs[m].state = .recovering (some q) → q ∉ s.segs[m].queue) →
        high = false → 9 ≤ count →
        failed (fun x => { (quiet [.pulse] x) with pulses := count, recStep := .pulse }) (exec (.recoveryPulse m high) s))) ∧
    (s.segs[m].queue.Nodup → (∀ q, s.segs[m].state = .recovering (some q) → q ∉ s.segs[m].queue) →
      e.isClosing = false → e.hold ≠ .stopped → failed (quiet []) (exec (.holdTimerExpiry m) s)) ∧
    (e.recStep = .look ∨ e.recStep = .stop →
      (∀ p t, s.segs[m].state = .recovering (some p) → s.ports[p].ctx = .addressing t →
        ∃ u, exec (.recoverySucceeded m) s = .next u ∧
          u.engines = tabUpd s.engines m (fun x =>
            (quiet [.stop] x).order p (some (t.snap.target, t.dir)) s.segs[m].shared) ∧
          u.segs = tabUpd s.segs m (fun a => { a with state := .active p }) ∧ u.ports = s.ports ∧
          posted .segmentRecovered u s ∧ SettingsSame s u ∧ LeasesSame s u ∧ FramesSame s u) ∧
      ((∀ p, s.segs[m].state ≠ .recovering (some p)) →
        ∃ u, exec (.recoverySucceeded m) s = .next u ∧
          (let v := (s.onEngine m (quiet [.stop])).handOver m
           posted .segmentRecovered u v ∧ u = { v with notices := u.notices })))

/-- R96 to R102: foreign masters. A foreign start with the bus not owned sets the foreign-busy flag of a shared segment; a
foreign stop clears a flag that is set, and drives the start that waited for it when both lines are high. With the bus owned and
shared mode clear a foreign start is not observed, and a foreign stop clears the flag of a segment whose shared flag is clear; in
RECOVERING neither is observed (what R96 does not name of these, and the operand of a foreign stop, are log entry 15). With the
bus owned in shared mode either condition, like a lost bit, is an arbitration loss: the engine lets go, the flag is set and the loss counted.
In an address phase with fewer than three attempts made the engine prepares the next one; after the third the port is turned
away with ARBITRATION_LOST and the segment handed over; in the data phase the port is broken and the segment handed over; a
closing or a stop is given up. -/
def Obligations.ForeignMastersAndLosses : Prop :=
  ∀ (m : Seg) (s : State),
    let e := s.engines[m]
    let a := s.segs[m]
    let lost := (s.onEngine m (fun x => { x with busOwned := false, foreignBusy := true, activity := .none, closing := false,
                                                 hold := .stopped, bus := [] })).onSeg m
      (fun b => { b with lossCount := min 65535 (b.lossCount + 1) })
    let gone := fun (x : Engine) => { x with state := .quiet, served := none, target := none, discarding := false }
    let freed := fun (t : State) (p : Port) =>
      (((t.onEngine m gone).onSeg m (fun b => { b with waits := b.waits.set p .stopped })).handOver m).onEngine m Engine.settle
    let start := fun (x : Engine) => { x with state := .starting, busOwned := false, activity := .none, sharedMode := a.shared }
    (e.state = .recovering → exec (.foreignStart m) s = .next s ∧ ∀ high, exec (.foreignStop m high) s = .next s) ∧
    (e.state ≠ .recovering → e.busOwned = true → e.sharedMode = false →
      exec (.foreignStart m) s = .next s ∧
      (a.shared = true → ∀ high, exec (.foreignStop m high) s = .next s) ∧
      (a.shared = false → ∀ high,
        exec (.foreignStop m high) s = .next (s.onEngine m (fun x => { x with foreignBusy := false })))) ∧
    (e.state ≠ .recovering → e.busOwned = false → a.shared = true →
      exec (.foreignStart m) s = .next (s.onEngine m (fun x => { x with foreignBusy := true }))) ∧
    (e.busOwned = false → a.shared = false → exec (.foreignStart m) s = .next s) ∧
    (e.state ≠ .recovering → e.busOwned = false → e.foreignBusy = true →
      (∀ high, high = false ∨ e.state ≠ .starting ∨ e.sharedMode = false →
        exec (.foreignStop m high) s = .next (s.onEngine m (fun x => { x with foreignBusy := false }))) ∧
      (∀ ad d, e.state = .starting → e.sharedMode = true → e.target = some (ad, d) →
        exec (.foreignStop m true) s = .next (s.onEngine m (fun x =>
          { x with foreignBusy := false, state := .address, busOwned := true, activity := .clocking, hold := .stopped
                   retry := x.retry + 1, bus := [.start, .address ad d] })))) ∧
    (e.busOwned = false → e.foreignBusy = false → ∀ high, exec (.foreignStop m high) s = .next s) ∧
    (∀ (i : Instr) (high : Bool), i = .arbitrationLoss m ∨ i = .foreignStart m ∨ i = .foreignStop m high →
      e.sharedMode = true → e.busOwned = true → e.state ≠ .recovering →
      (∀ p t, e.isClosing = false → e.state ≠ .stopping → e.served = some p → s.ports[p].ctx = .addressing t →
        (e.retry < 3 → exec i s = .next (lost.onEngine m start)) ∧
        (3 ≤ e.retry → exec i s = .next (freed (lost.onPort p (HostPort.turnedAway .arbitrationLost t)) p))) ∧
      (∀ p t, e.isClosing = false → e.state ≠ .stopping → e.served = some p →
        s.ports[p].ctx = .relayWrite t ∨ s.ports[p].ctx = .relayRead t →
        exec i s = .next (freed (lost.afterBreak m p t .arbitrationLost) p)) ∧
      (e.isClosing = true ∨ e.state = .stopping →
        (e.served = none → exec i s = .next (lost.onEngine m gone)) ∧
        (∀ p t, e.served = some p → s.ports[p].ctx = .addressing t →
          exec i s = .next (lost.onEngine m (fun x =>
            { (start x) with discarding := false, target := some (t.snap.target, t.dir) })))))

/-! ### Events that cannot occur -/

/-- The model's choice (log entry 5): an event that cannot occur in a state is refused by name. A command row needs its port IDLE
(a frame is taken by the event that leaves its port so), and BAD_COMMAND a byte that is no command code; a byte or an answer
needs the host to have the bus for it; an expiry needs its timer running or its lease HELD; a report of an engine needs the engine
at the step that the report ends; an arbitration loss needs a message of the part in shared mode. -/
def Obligations.EventsThatCannotOccurAreRefused : Prop :=
  ∀ s : State,
    (∀ (p : Port) (c : Command), s.ports[p].ctx ≠ .idle → exec (c.row p) s = .refused .noFrameTaken) ∧
    (∀ (p : Port) (b : Byte),
      ((opOfCode b).isSome = true → exec (.badCommand p b) s = .refused .codeIsACommand) ∧
      (opOfCode b = none → s.ports[p].ctx ≠ .idle → exec (.badCommand p b) s = .refused .noFrameTaken)) ∧
    (∀ (p : Port) (t : Transfer), s.ports[p].clockHeld = false →
      (s.ports[p].ctx = .relayWrite t ∨ s.ports[p].ctx = .relayRead t ∨ s.ports[p].ctx = .broken t →
        (s.ports[p].addrExpected = true → ∀ b, exec (.dataByte p b) s = .refused .addressByteDue) ∧
        (s.ports[p].addrExpected = true → exec (.hostAcknowledge p) s = .refused .addressByteDue ∧
          exec (.hostNotAcknowledge p) s = .refused .addressByteDue) ∧
        (s.ports[p].addrExpected = false → ∀ a d, exec (.addressByte p a d) s = .refused .addressByteNotDue)) ∧
      (s.ports[p].ctx = .relayRead t → s.ports[p].addrExpected = false →
        ∀ b, exec (.dataByte p b) s = .refused .wrongDirection) ∧
      (s.ports[p].ctx = .relayWrite t → s.ports[p].addrExpected = false →
        exec (.hostAcknowledge p) s = .refused .wrongDirection ∧
          exec (.hostNotAcknowledge p) s = .refused .wrongDirection) ∧
      (s.ports[p].ctx = .broken t → s.ports[p].addrExpected = false →
        (t.dir = .read → ∀ b, exec (.dataByte p b) s = .refused .wrongDirection) ∧
        (t.dir = .write → exec (.hostAcknowledge p) s = .refused .wrongDirection ∧
          exec (.hostNotAcknowledge p) s = .refused .wrongDirection))) ∧
    (∀ p : Port, s.ports[p].clockHeld = false →
      (s.ports[p].ctx = .commandIn → exec (.hostAcknowledge p) s = .refused .wrongDirection ∧
        exec (.hostNotAcknowledge p) s = .refused .wrongDirection) ∧
      (∀ n c, s.ports[p].ctx = .responseOut n c → ∀ b, exec (.dataByte p b) s = .refused .wrongDirection) ∧
      (s.ports[p].ctx = .commandIn ∨ (∃ n c, s.ports[p].ctx = .responseOut n c) →
        ∀ a d, exec (.addressByte p a d) s = .refused .addressByteNotDue)) ∧
    (∀ p : Port, s.ports[p].abandon = .stopped → exec (.abandonExpiry p) s = .refused .timerNotRunning) ∧
    (∀ e : EntryIx, s.heldOn e = none → exec (.leaseExpiry e) s = .refused .noLeaseHeld) ∧
    ∀ m : Seg,
      let e := s.engines[m]
      (e.hold = .stopped → exec (.holdTimerExpiry m) s = .refused .timerNotRunning) ∧
      (e.state ≠ .starting → exec (.lineCheckPassed m) s = .refused .engineNotAtStep) ∧
      (e.state ≠ .address ∨ e.isClosing = true → exec (.targetAcknowledgesAddress m) s = .refused .engineNotAtStep ∧
        exec (.targetNack m) s = .refused .engineNotAtStep) ∧
      (e.state ≠ .writing ∨ e.activity ≠ .clocking ∨ e.isClosing = true →
        ∀ acked, exec (.writeByteAnswered m acked) s = .refused .engineNotAtStep) ∧
      (e.state ≠ .reading ∨ e.activity ≠ .clocking ∨ e.isClosing = true →
        ∀ b, exec (.readByteFetched m b) s = .refused .engineNotAtStep) ∧
      (e.isClosing = false → ∀ acked, exec (.closingByteFinished m acked) s = .refused .engineNotAtStep) ∧
      (e.state ≠ .stopping → exec (.stopComplete m) s = .refused .engineNotAtStep) ∧
      (e.state ≠ .recovering ∨ e.recStep = .stop → ∀ high, exec (.recoveryPulse m high) s = .refused .engineNotAtStep) ∧
      (e.state ≠ .recovering ∨ e.recStep = .pulse ∨ e.recStep = .pulsing → exec (.recoverySucceeded m) s = .refused .engineNotAtStep) ∧
      (e.sharedMode = false ∨ e.busOwned = false ∨ e.state = .recovering →
        exec (.arbitrationLoss m) s = .refused .noContest)
end

