-- ==== Sys2Proof/Laws/Codecs.lean ====
section
/-! SUPPORT. Values and their bytes (R158): what an argument decoder reads from the byte of a value is that value, and each
decoder refuses the bytes outside its encoding. -/

namespace Sys2Proof.Machine

/-! ### Bytes read back -/

@[simp] theorem decodePort_portByte (p : Port) : decodePort (portByte p) = some p := by
  revert p; decide

@[simp] theorem decodeSeg_segByte (m : Seg) : decodeSeg (segByte m) = some m := by
  revert m; decide

@[simp] theorem decodeEntry_entryByte (e : EntryIx) : decodeEntry (entryByte e) = some e := by
  revert e; decide

@[simp] theorem decodeAddr_addrByte (a : Addr) : decodeAddr (addrByte a) = some a := by
  have ha : a.toNat < 128 := a.isLt
  have hb : (addrByte a).toNat = a.toNat := by simp [addrByte]; omega
  simp [decodeAddr, hb, ha]

@[simp] theorem decodeFlag_flagByte (b : Bool) : decodeFlag (flagByte b) = some b := by
  revert b; decide

@[simp] theorem decodeMode_modeByte (m : Mode) : decodeMode (modeByte m) = some m := by
  cases m <;> decide

@[simp] theorem decodeSpan_size (sp : Span) : decodeSpan (countByte sp.size) = some sp := by
  cases sp <;> decide

@[simp] theorem decodeMask_maskByte (m : PortMask) : decodeMask (maskByte m) = some m := by
  revert m; decide

@[simp] theorem decodeRights_byte (r : Rights) : decodeRights r.byte = some r := by
  obtain ⟨a, b, c, d⟩ := r
  revert a b c d; decide

@[simp] theorem decodeDefault_segOrAbsent (d : Option Seg) : decodeDefault (segOrAbsent d) = some d := by
  revert d; decide

/-- The two bytes of a 16-bit quantity are the quantity (R158). -/
@[simp] theorem halfOf_bytes (h : Half) : halfOf (hiByte h) (loByte h) = h := by
  have hh : h.toNat < 65536 := h.isLt
  apply BitVec.eq_of_toNat_eq
  simp [halfOf, hiByte, loByte]
  omega

/-- A duration or max lease that is not 0 is taken as it is (R117, R119). -/
theorem decodeDuration_of_ne {h : Half} (hn : h ≠ 0#16) : decodeDuration h = some h.toNat := by
  have : h.toNat ≠ 0 := fun e => hn (BitVec.eq_of_toNat_eq (by simpa using e))
  simp [decodeDuration, this]

theorem decodeDuration_ofNat {n : Nat} (h₁ : 1 ≤ n) (h₂ : n ≤ 65535) : decodeDuration (BitVec.ofNat 16 n) = some n := by
  have : n % 65536 = n := by omega
  simp [decodeDuration, this]; omega

/-! ### Bytes refused -/

theorem decodePort_none {b : Byte} : decodePort b = none ↔ 3 < b.toNat := by
  unfold decodePort; split <;> simp <;> omega

theorem decodeSeg_none {b : Byte} : decodeSeg b = none ↔ 7 < b.toNat := by
  unfold decodeSeg; split <;> simp <;> omega

theorem decodeEntry_none {b : Byte} : decodeEntry b = none ↔ 47 < b.toNat := by
  unfold decodeEntry; split <;> simp <;> omega

theorem decodeAddr_none {b : Byte} : decodeAddr b = none ↔ 0x7F < b.toNat := by
  unfold decodeAddr; split <;> simp <;> omega

theorem decodeMask_none {b : Byte} : decodeMask b = none ↔ 15 < b.toNat := by
  unfold decodeMask; split <;> simp <;> omega

theorem decodeRights_none {b : Byte} : decodeRights b = none ↔ 15 < b.toNat := by
  unfold decodeRights; split <;> simp <;> omega

theorem decodeFlag_none {b : Byte} : decodeFlag b = none ↔ 1 < b.toNat := by
  revert b; decide

theorem decodeMode_none {b : Byte} : decodeMode b = none ↔ 1 < b.toNat := by
  revert b; decide

theorem decodeSpan_none {b : Byte} : decodeSpan b = none ↔ b.toNat ∉ [1, 2, 4, 8] := by
  revert b; decide

theorem decodeDefault_none {b : Byte} : decodeDefault b = none ↔ 7 < b.toNat ∧ b ≠ 0xFF#8 := by
  unfold decodeDefault
  split
  · simp [*]
  · simp [*, decodeSeg_none]

theorem decodeDuration_none {h : Half} : decodeDuration h = none ↔ h.toNat = 0 := by
  unfold decodeDuration; split <;> simp [*]

/-! ### Frames (R159) -/

/-- The code of a command is read as the command (R159). -/
@[simp] theorem opOfCode_opCode (o : Op) : opOfCode (opCode o) = some o := by
  cases o <;> decide

end Sys2Proof.Machine
end

