-- ==== Sys2Proof/Laws/State.lean ====
section
/-! SUPPORT. What each update of a table and of the state leaves and changes, field by field, so that no later proof unfolds
a record update. -/

namespace Sys2Proof.Machine

/-! ### Tables -/

@[simp] theorem tabUpd_getElem {α : Type} {n : Nat} (v : Vector α n) (i : Fin n) (f : α → α) (k : Nat) (h : k < n) :
    (tabUpd v i f)[k] = if i.val = k then f v[k] else v[k] := by
  unfold tabUpd
  rw [Vector.getElem_set]
  split
  · subst_vars; rfl
  · rfl

theorem tabUpd_self {α : Type} {n : Nat} (v : Vector α n) (i : Fin n) (f : α → α) : (tabUpd v i f)[i] = f v[i] := by
  simp

theorem tabUpd_other {α : Type} {n : Nat} (v : Vector α n) (i j : Fin n) (f : α → α) (h : i ≠ j) :
    (tabUpd v i f)[j] = v[j] := by
  have h' : i.val ≠ j.val := fun e => h (Fin.ext e)
  simp [h']

@[simp] theorem tabMap_getElem {α β : Type} {n : Nat} (v : Vector α n) (f : α → β) (k : Nat) (h : k < n) :
    (tabMap v f)[k] = f v[k] := by
  simp [tabMap]

/-- Two changes of one record are one. -/
theorem tabUpd_tabUpd {α : Type} {n : Nat} (v : Vector α n) (i : Fin n) (f g : α → α) :
    tabUpd (tabUpd v i f) i g = tabUpd v i (fun x => g (f x)) := by
  apply Vector.ext
  intro k hk
  simp only [tabUpd_getElem]
  split <;> rfl

/-- Changes of different records commute. -/
theorem tabUpd_comm {α : Type} {n : Nat} (v : Vector α n) {i j : Fin n} (h : i ≠ j) (f g : α → α) :
    tabUpd (tabUpd v i f) j g = tabUpd (tabUpd v j g) i f := by
  have h' : i.val ≠ j.val := fun e => h (Fin.ext e)
  apply Vector.ext
  intro k hk
  simp only [tabUpd_getElem]
  by_cases hi : i.val = k
  · have hj : j.val ≠ k := fun e => h' (hi.trans e.symm)
    simp [hi, hj]
  · simp [hi]

/-- A change that changes nothing. -/
theorem tabUpd_eq_self {α : Type} {n : Nat} (v : Vector α n) (i : Fin n) (f : α → α) (h : f v[i] = v[i]) :
    tabUpd v i f = v := by
  apply Vector.ext
  intro k hk
  simp only [tabUpd_getElem]
  split
  · subst_vars; exact h
  · rfl

theorem State.onPort_onPort (s : State) (p : Port) (f g : HostPort → HostPort) :
    (s.onPort p f).onPort p g = s.onPort p (fun x => g (f x)) := by
  simp only [State.onPort, tabUpd_tabUpd]

theorem State.onSeg_onSeg (s : State) (m : Seg) (f g : Arbiter → Arbiter) :
    (s.onSeg m f).onSeg m g = s.onSeg m (fun x => g (f x)) := by
  simp only [State.onSeg, tabUpd_tabUpd]

theorem State.onEngine_onEngine (s : State) (m : Seg) (f g : Engine → Engine) :
    (s.onEngine m f).onEngine m g = s.onEngine m (fun x => g (f x)) := by
  simp only [State.onEngine, tabUpd_tabUpd]

/-! ### One table changed -/

/-! `onPort` -/

@[simp] theorem State.onPort_ports (s : State) (p : Port) (f : HostPort → HostPort) : (s.onPort p f).ports = tabUpd s.ports p f := rfl
@[simp] theorem State.onPort_directory (s : State) (p : Port) (f : HostPort → HostPort) : (s.onPort p f).directory = s.directory := rfl
@[simp] theorem State.onPort_defaults (s : State) (p : Port) (f : HostPort → HostPort) : (s.onPort p f).defaults = s.defaults := rfl
@[simp] theorem State.onPort_segs (s : State) (p : Port) (f : HostPort → HostPort) : (s.onPort p f).segs = s.segs := rfl
@[simp] theorem State.onPort_engines (s : State) (p : Port) (f : HostPort → HostPort) : (s.onPort p f).engines = s.engines := rfl
@[simp] theorem State.onPort_leases (s : State) (p : Port) (f : HostPort → HostPort) : (s.onPort p f).leases = s.leases := rfl
@[simp] theorem State.onPort_tokenCounter (s : State) (p : Port) (f : HostPort → HostPort) : (s.onPort p f).tokenCounter = s.tokenCounter := rfl
@[simp] theorem State.onPort_notices (s : State) (p : Port) (f : HostPort → HostPort) : (s.onPort p f).notices = s.notices := rfl
@[simp] theorem State.onPort_buffers (s : State) (p : Port) (f : HostPort → HostPort) : (s.onPort p f).buffers = s.buffers := rfl
@[simp] theorem State.onPort_responses (s : State) (p : Port) (f : HostPort → HostPort) : (s.onPort p f).responses = s.responses := rfl
@[simp] theorem State.onPort_rights (s : State) (p : Port) (f : HostPort → HostPort) : (s.onPort p f).rights = s.rights := rfl
@[simp] theorem State.onPort_adr (s : State) (p : Port) (f : HostPort → HostPort) : (s.onPort p f).adr = s.adr := rfl
@[simp] theorem State.onPort_admSel (s : State) (p : Port) (f : HostPort → HostPort) : (s.onPort p f).admSel = s.admSel := rfl
@[simp] theorem State.onPort_pending (s : State) (p : Port) (f : HostPort → HostPort) : (s.onPort p f).pending = s.pending := rfl

/-! `onEntry` -/

@[simp] theorem State.onEntry_ports (s : State) (e : EntryIx) (f : Entry → Entry) : (s.onEntry e f).ports = s.ports := rfl
@[simp] theorem State.onEntry_directory (s : State) (e : EntryIx) (f : Entry → Entry) : (s.onEntry e f).directory = tabUpd s.directory e f := rfl
@[simp] theorem State.onEntry_defaults (s : State) (e : EntryIx) (f : Entry → Entry) : (s.onEntry e f).defaults = s.defaults := rfl
@[simp] theorem State.onEntry_segs (s : State) (e : EntryIx) (f : Entry → Entry) : (s.onEntry e f).segs = s.segs := rfl
@[simp] theorem State.onEntry_engines (s : State) (e : EntryIx) (f : Entry → Entry) : (s.onEntry e f).engines = s.engines := rfl
@[simp] theorem State.onEntry_leases (s : State) (e : EntryIx) (f : Entry → Entry) : (s.onEntry e f).leases = s.leases := rfl
@[simp] theorem State.onEntry_tokenCounter (s : State) (e : EntryIx) (f : Entry → Entry) : (s.onEntry e f).tokenCounter = s.tokenCounter := rfl
@[simp] theorem State.onEntry_notices (s : State) (e : EntryIx) (f : Entry → Entry) : (s.onEntry e f).notices = s.notices := rfl
@[simp] theorem State.onEntry_buffers (s : State) (e : EntryIx) (f : Entry → Entry) : (s.onEntry e f).buffers = s.buffers := rfl
@[simp] theorem State.onEntry_responses (s : State) (e : EntryIx) (f : Entry → Entry) : (s.onEntry e f).responses = s.responses := rfl
@[simp] theorem State.onEntry_rights (s : State) (e : EntryIx) (f : Entry → Entry) : (s.onEntry e f).rights = s.rights := rfl
@[simp] theorem State.onEntry_adr (s : State) (e : EntryIx) (f : Entry → Entry) : (s.onEntry e f).adr = s.adr := rfl
@[simp] theorem State.onEntry_admSel (s : State) (e : EntryIx) (f : Entry → Entry) : (s.onEntry e f).admSel = s.admSel := rfl
@[simp] theorem State.onEntry_pending (s : State) (e : EntryIx) (f : Entry → Entry) : (s.onEntry e f).pending = s.pending := rfl

/-! `onSeg` -/

@[simp] theorem State.onSeg_ports (s : State) (m : Seg) (f : Arbiter → Arbiter) : (s.onSeg m f).ports = s.ports := rfl
@[simp] theorem State.onSeg_directory (s : State) (m : Seg) (f : Arbiter → Arbiter) : (s.onSeg m f).directory = s.directory := rfl
@[simp] theorem State.onSeg_defaults (s : State) (m : Seg) (f : Arbiter → Arbiter) : (s.onSeg m f).defaults = s.defaults := rfl
@[simp] theorem State.onSeg_segs (s : State) (m : Seg) (f : Arbiter → Arbiter) : (s.onSeg m f).segs = tabUpd s.segs m f := rfl
@[simp] theorem State.onSeg_engines (s : State) (m : Seg) (f : Arbiter → Arbiter) : (s.onSeg m f).engines = s.engines := rfl
@[simp] theorem State.onSeg_leases (s : State) (m : Seg) (f : Arbiter → Arbiter) : (s.onSeg m f).leases = s.leases := rfl
@[simp] theorem State.onSeg_tokenCounter (s : State) (m : Seg) (f : Arbiter → Arbiter) : (s.onSeg m f).tokenCounter = s.tokenCounter := rfl
@[simp] theorem State.onSeg_notices (s : State) (m : Seg) (f : Arbiter → Arbiter) : (s.onSeg m f).notices = s.notices := rfl
@[simp] theorem State.onSeg_buffers (s : State) (m : Seg) (f : Arbiter → Arbiter) : (s.onSeg m f).buffers = s.buffers := rfl
@[simp] theorem State.onSeg_responses (s : State) (m : Seg) (f : Arbiter → Arbiter) : (s.onSeg m f).responses = s.responses := rfl
@[simp] theorem State.onSeg_rights (s : State) (m : Seg) (f : Arbiter → Arbiter) : (s.onSeg m f).rights = s.rights := rfl
@[simp] theorem State.onSeg_adr (s : State) (m : Seg) (f : Arbiter → Arbiter) : (s.onSeg m f).adr = s.adr := rfl
@[simp] theorem State.onSeg_admSel (s : State) (m : Seg) (f : Arbiter → Arbiter) : (s.onSeg m f).admSel = s.admSel := rfl
@[simp] theorem State.onSeg_pending (s : State) (m : Seg) (f : Arbiter → Arbiter) : (s.onSeg m f).pending = s.pending := rfl

/-! `onEngine` -/

@[simp] theorem State.onEngine_ports (s : State) (m : Seg) (f : Engine → Engine) : (s.onEngine m f).ports = s.ports := rfl
@[simp] theorem State.onEngine_directory (s : State) (m : Seg) (f : Engine → Engine) : (s.onEngine m f).directory = s.directory := rfl
@[simp] theorem State.onEngine_defaults (s : State) (m : Seg) (f : Engine → Engine) : (s.onEngine m f).defaults = s.defaults := rfl
@[simp] theorem State.onEngine_segs (s : State) (m : Seg) (f : Engine → Engine) : (s.onEngine m f).segs = s.segs := rfl
@[simp] theorem State.onEngine_engines (s : State) (m : Seg) (f : Engine → Engine) : (s.onEngine m f).engines = tabUpd s.engines m f := rfl
@[simp] theorem State.onEngine_leases (s : State) (m : Seg) (f : Engine → Engine) : (s.onEngine m f).leases = s.leases := rfl
@[simp] theorem State.onEngine_tokenCounter (s : State) (m : Seg) (f : Engine → Engine) : (s.onEngine m f).tokenCounter = s.tokenCounter := rfl
@[simp] theorem State.onEngine_notices (s : State) (m : Seg) (f : Engine → Engine) : (s.onEngine m f).notices = s.notices := rfl
@[simp] theorem State.onEngine_buffers (s : State) (m : Seg) (f : Engine → Engine) : (s.onEngine m f).buffers = s.buffers := rfl
@[simp] theorem State.onEngine_responses (s : State) (m : Seg) (f : Engine → Engine) : (s.onEngine m f).responses = s.responses := rfl
@[simp] theorem State.onEngine_rights (s : State) (m : Seg) (f : Engine → Engine) : (s.onEngine m f).rights = s.rights := rfl
@[simp] theorem State.onEngine_adr (s : State) (m : Seg) (f : Engine → Engine) : (s.onEngine m f).adr = s.adr := rfl
@[simp] theorem State.onEngine_admSel (s : State) (m : Seg) (f : Engine → Engine) : (s.onEngine m f).admSel = s.admSel := rfl
@[simp] theorem State.onEngine_pending (s : State) (m : Seg) (f : Engine → Engine) : (s.onEngine m f).pending = s.pending := rfl

/-! `onNotices` -/

@[simp] theorem State.onNotices_ports (s : State) (p : Port) (f : NoticeQueue → NoticeQueue) : (s.onNotices p f).ports = s.ports := rfl
@[simp] theorem State.onNotices_directory (s : State) (p : Port) (f : NoticeQueue → NoticeQueue) : (s.onNotices p f).directory = s.directory := rfl
@[simp] theorem State.onNotices_defaults (s : State) (p : Port) (f : NoticeQueue → NoticeQueue) : (s.onNotices p f).defaults = s.defaults := rfl
@[simp] theorem State.onNotices_segs (s : State) (p : Port) (f : NoticeQueue → NoticeQueue) : (s.onNotices p f).segs = s.segs := rfl
@[simp] theorem State.onNotices_engines (s : State) (p : Port) (f : NoticeQueue → NoticeQueue) : (s.onNotices p f).engines = s.engines := rfl
@[simp] theorem State.onNotices_leases (s : State) (p : Port) (f : NoticeQueue → NoticeQueue) : (s.onNotices p f).leases = s.leases := rfl
@[simp] theorem State.onNotices_tokenCounter (s : State) (p : Port) (f : NoticeQueue → NoticeQueue) : (s.onNotices p f).tokenCounter = s.tokenCounter := rfl
@[simp] theorem State.onNotices_notices (s : State) (p : Port) (f : NoticeQueue → NoticeQueue) : (s.onNotices p f).notices = tabUpd s.notices p f := rfl
@[simp] theorem State.onNotices_buffers (s : State) (p : Port) (f : NoticeQueue → NoticeQueue) : (s.onNotices p f).buffers = s.buffers := rfl
@[simp] theorem State.onNotices_responses (s : State) (p : Port) (f : NoticeQueue → NoticeQueue) : (s.onNotices p f).responses = s.responses := rfl
@[simp] theorem State.onNotices_rights (s : State) (p : Port) (f : NoticeQueue → NoticeQueue) : (s.onNotices p f).rights = s.rights := rfl
@[simp] theorem State.onNotices_adr (s : State) (p : Port) (f : NoticeQueue → NoticeQueue) : (s.onNotices p f).adr = s.adr := rfl
@[simp] theorem State.onNotices_admSel (s : State) (p : Port) (f : NoticeQueue → NoticeQueue) : (s.onNotices p f).admSel = s.admSel := rfl
@[simp] theorem State.onNotices_pending (s : State) (p : Port) (f : NoticeQueue → NoticeQueue) : (s.onNotices p f).pending = s.pending := rfl

/-! `onBuffer` -/

@[simp] theorem State.onBuffer_ports (s : State) (p : Port) (f : FrameBuffer → FrameBuffer) : (s.onBuffer p f).ports = s.ports := rfl
@[simp] theorem State.onBuffer_directory (s : State) (p : Port) (f : FrameBuffer → FrameBuffer) : (s.onBuffer p f).directory = s.directory := rfl
@[simp] theorem State.onBuffer_defaults (s : State) (p : Port) (f : FrameBuffer → FrameBuffer) : (s.onBuffer p f).defaults = s.defaults := rfl
@[simp] theorem State.onBuffer_segs (s : State) (p : Port) (f : FrameBuffer → FrameBuffer) : (s.onBuffer p f).segs = s.segs := rfl
@[simp] theorem State.onBuffer_engines (s : State) (p : Port) (f : FrameBuffer → FrameBuffer) : (s.onBuffer p f).engines = s.engines := rfl
@[simp] theorem State.onBuffer_leases (s : State) (p : Port) (f : FrameBuffer → FrameBuffer) : (s.onBuffer p f).leases = s.leases := rfl
@[simp] theorem State.onBuffer_tokenCounter (s : State) (p : Port) (f : FrameBuffer → FrameBuffer) : (s.onBuffer p f).tokenCounter = s.tokenCounter := rfl
@[simp] theorem State.onBuffer_notices (s : State) (p : Port) (f : FrameBuffer → FrameBuffer) : (s.onBuffer p f).notices = s.notices := rfl
@[simp] theorem State.onBuffer_buffers (s : State) (p : Port) (f : FrameBuffer → FrameBuffer) : (s.onBuffer p f).buffers = tabUpd s.buffers p f := rfl
@[simp] theorem State.onBuffer_responses (s : State) (p : Port) (f : FrameBuffer → FrameBuffer) : (s.onBuffer p f).responses = s.responses := rfl
@[simp] theorem State.onBuffer_rights (s : State) (p : Port) (f : FrameBuffer → FrameBuffer) : (s.onBuffer p f).rights = s.rights := rfl
@[simp] theorem State.onBuffer_adr (s : State) (p : Port) (f : FrameBuffer → FrameBuffer) : (s.onBuffer p f).adr = s.adr := rfl
@[simp] theorem State.onBuffer_admSel (s : State) (p : Port) (f : FrameBuffer → FrameBuffer) : (s.onBuffer p f).admSel = s.admSel := rfl
@[simp] theorem State.onBuffer_pending (s : State) (p : Port) (f : FrameBuffer → FrameBuffer) : (s.onBuffer p f).pending = s.pending := rfl

/-! `onResponse` -/

@[simp] theorem State.onResponse_ports (s : State) (p : Port) (f : Response → Response) : (s.onResponse p f).ports = s.ports := rfl
@[simp] theorem State.onResponse_directory (s : State) (p : Port) (f : Response → Response) : (s.onResponse p f).directory = s.directory := rfl
@[simp] theorem State.onResponse_defaults (s : State) (p : Port) (f : Response → Response) : (s.onResponse p f).defaults = s.defaults := rfl
@[simp] theorem State.onResponse_segs (s : State) (p : Port) (f : Response → Response) : (s.onResponse p f).segs = s.segs := rfl
@[simp] theorem State.onResponse_engines (s : State) (p : Port) (f : Response → Response) : (s.onResponse p f).engines = s.engines := rfl
@[simp] theorem State.onResponse_leases (s : State) (p : Port) (f : Response → Response) : (s.onResponse p f).leases = s.leases := rfl
@[simp] theorem State.onResponse_tokenCounter (s : State) (p : Port) (f : Response → Response) : (s.onResponse p f).tokenCounter = s.tokenCounter := rfl
@[simp] theorem State.onResponse_notices (s : State) (p : Port) (f : Response → Response) : (s.onResponse p f).notices = s.notices := rfl
@[simp] theorem State.onResponse_buffers (s : State) (p : Port) (f : Response → Response) : (s.onResponse p f).buffers = s.buffers := rfl
@[simp] theorem State.onResponse_responses (s : State) (p : Port) (f : Response → Response) : (s.onResponse p f).responses = tabUpd s.responses p f := rfl
@[simp] theorem State.onResponse_rights (s : State) (p : Port) (f : Response → Response) : (s.onResponse p f).rights = s.rights := rfl
@[simp] theorem State.onResponse_adr (s : State) (p : Port) (f : Response → Response) : (s.onResponse p f).adr = s.adr := rfl
@[simp] theorem State.onResponse_admSel (s : State) (p : Port) (f : Response → Response) : (s.onResponse p f).admSel = s.admSel := rfl
@[simp] theorem State.onResponse_pending (s : State) (p : Port) (f : Response → Response) : (s.onResponse p f).pending = s.pending := rfl

/-! `onRights` -/

@[simp] theorem State.onRights_ports (s : State) (p : Port) (f : RightsRow → RightsRow) : (s.onRights p f).ports = s.ports := rfl
@[simp] theorem State.onRights_directory (s : State) (p : Port) (f : RightsRow → RightsRow) : (s.onRights p f).directory = s.directory := rfl
@[simp] theorem State.onRights_defaults (s : State) (p : Port) (f : RightsRow → RightsRow) : (s.onRights p f).defaults = s.defaults := rfl
@[simp] theorem State.onRights_segs (s : State) (p : Port) (f : RightsRow → RightsRow) : (s.onRights p f).segs = s.segs := rfl
@[simp] theorem State.onRights_engines (s : State) (p : Port) (f : RightsRow → RightsRow) : (s.onRights p f).engines = s.engines := rfl
@[simp] theorem State.onRights_leases (s : State) (p : Port) (f : RightsRow → RightsRow) : (s.onRights p f).leases = s.leases := rfl
@[simp] theorem State.onRights_tokenCounter (s : State) (p : Port) (f : RightsRow → RightsRow) : (s.onRights p f).tokenCounter = s.tokenCounter := rfl
@[simp] theorem State.onRights_notices (s : State) (p : Port) (f : RightsRow → RightsRow) : (s.onRights p f).notices = s.notices := rfl
@[simp] theorem State.onRights_buffers (s : State) (p : Port) (f : RightsRow → RightsRow) : (s.onRights p f).buffers = s.buffers := rfl
@[simp] theorem State.onRights_responses (s : State) (p : Port) (f : RightsRow → RightsRow) : (s.onRights p f).responses = s.responses := rfl
@[simp] theorem State.onRights_rights (s : State) (p : Port) (f : RightsRow → RightsRow) : (s.onRights p f).rights = tabUpd s.rights p f := rfl
@[simp] theorem State.onRights_adr (s : State) (p : Port) (f : RightsRow → RightsRow) : (s.onRights p f).adr = s.adr := rfl
@[simp] theorem State.onRights_admSel (s : State) (p : Port) (f : RightsRow → RightsRow) : (s.onRights p f).admSel = s.admSel := rfl
@[simp] theorem State.onRights_pending (s : State) (p : Port) (f : RightsRow → RightsRow) : (s.onRights p f).pending = s.pending := rfl

/-! ### Leases and tokens -/

/-! `setLease` -/

@[simp] theorem State.setLease_ports (s : State) (i : Slot) (l : Option Lease) : (s.setLease i l).ports = s.ports := rfl
@[simp] theorem State.setLease_directory (s : State) (i : Slot) (l : Option Lease) : (s.setLease i l).directory = s.directory := rfl
@[simp] theorem State.setLease_defaults (s : State) (i : Slot) (l : Option Lease) : (s.setLease i l).defaults = s.defaults := rfl
@[simp] theorem State.setLease_segs (s : State) (i : Slot) (l : Option Lease) : (s.setLease i l).segs = s.segs := rfl
@[simp] theorem State.setLease_engines (s : State) (i : Slot) (l : Option Lease) : (s.setLease i l).engines = s.engines := rfl
@[simp] theorem State.setLease_leases (s : State) (i : Slot) (l : Option Lease) : (s.setLease i l).leases = tabUpd s.leases i (fun _ => l) := rfl
@[simp] theorem State.setLease_tokenCounter (s : State) (i : Slot) (l : Option Lease) : (s.setLease i l).tokenCounter = s.tokenCounter := rfl
@[simp] theorem State.setLease_notices (s : State) (i : Slot) (l : Option Lease) : (s.setLease i l).notices = s.notices := rfl
@[simp] theorem State.setLease_buffers (s : State) (i : Slot) (l : Option Lease) : (s.setLease i l).buffers = s.buffers := rfl
@[simp] theorem State.setLease_responses (s : State) (i : Slot) (l : Option Lease) : (s.setLease i l).responses = s.responses := rfl
@[simp] theorem State.setLease_rights (s : State) (i : Slot) (l : Option Lease) : (s.setLease i l).rights = s.rights := rfl
@[simp] theorem State.setLease_adr (s : State) (i : Slot) (l : Option Lease) : (s.setLease i l).adr = s.adr := rfl
@[simp] theorem State.setLease_admSel (s : State) (i : Slot) (l : Option Lease) : (s.setLease i l).admSel = s.admSel := rfl
@[simp] theorem State.setLease_pending (s : State) (i : Slot) (l : Option Lease) : (s.setLease i l).pending = s.pending := rfl

/-! `afterIssue` -/

@[simp] theorem State.afterIssue_ports (s : State) (t : Byte) : (s.afterIssue t).ports = s.ports := rfl
@[simp] theorem State.afterIssue_directory (s : State) (t : Byte) : (s.afterIssue t).directory = s.directory := rfl
@[simp] theorem State.afterIssue_defaults (s : State) (t : Byte) : (s.afterIssue t).defaults = s.defaults := rfl
@[simp] theorem State.afterIssue_segs (s : State) (t : Byte) : (s.afterIssue t).segs = s.segs := rfl
@[simp] theorem State.afterIssue_engines (s : State) (t : Byte) : (s.afterIssue t).engines = s.engines := rfl
@[simp] theorem State.afterIssue_leases (s : State) (t : Byte) : (s.afterIssue t).leases = s.leases := rfl
@[simp] theorem State.afterIssue_tokenCounter (s : State) (t : Byte) : (s.afterIssue t).tokenCounter = bumpToken t := rfl
@[simp] theorem State.afterIssue_notices (s : State) (t : Byte) : (s.afterIssue t).notices = s.notices := rfl
@[simp] theorem State.afterIssue_buffers (s : State) (t : Byte) : (s.afterIssue t).buffers = s.buffers := rfl
@[simp] theorem State.afterIssue_responses (s : State) (t : Byte) : (s.afterIssue t).responses = s.responses := rfl
@[simp] theorem State.afterIssue_rights (s : State) (t : Byte) : (s.afterIssue t).rights = s.rights := rfl
@[simp] theorem State.afterIssue_adr (s : State) (t : Byte) : (s.afterIssue t).adr = s.adr := rfl
@[simp] theorem State.afterIssue_admSel (s : State) (t : Byte) : (s.afterIssue t).admSel = s.admSel := rfl
@[simp] theorem State.afterIssue_pending (s : State) (t : Byte) : (s.afterIssue t).pending = s.pending := rfl

/-! `closeGap` -/

@[simp] theorem State.closeGap_ports (s : State) (e : EntryIx) (k : Nat) : (s.closeGap e k).ports = s.ports := by
  simp only [State.closeGap]
@[simp] theorem State.closeGap_directory (s : State) (e : EntryIx) (k : Nat) : (s.closeGap e k).directory = s.directory := by
  simp only [State.closeGap]
@[simp] theorem State.closeGap_defaults (s : State) (e : EntryIx) (k : Nat) : (s.closeGap e k).defaults = s.defaults := by
  simp only [State.closeGap]
@[simp] theorem State.closeGap_segs (s : State) (e : EntryIx) (k : Nat) : (s.closeGap e k).segs = s.segs := by
  simp only [State.closeGap]
@[simp] theorem State.closeGap_engines (s : State) (e : EntryIx) (k : Nat) : (s.closeGap e k).engines = s.engines := by
  simp only [State.closeGap]
@[simp] theorem State.closeGap_leases (s : State) (e : EntryIx) (k : Nat) : (s.closeGap e k).leases = tabMap s.leases (Option.map (Lease.moveUp e k)) := by
  simp only [State.closeGap]
@[simp] theorem State.closeGap_tokenCounter (s : State) (e : EntryIx) (k : Nat) : (s.closeGap e k).tokenCounter = s.tokenCounter := by
  simp only [State.closeGap]
@[simp] theorem State.closeGap_notices (s : State) (e : EntryIx) (k : Nat) : (s.closeGap e k).notices = s.notices := by
  simp only [State.closeGap]
@[simp] theorem State.closeGap_buffers (s : State) (e : EntryIx) (k : Nat) : (s.closeGap e k).buffers = s.buffers := by
  simp only [State.closeGap]
@[simp] theorem State.closeGap_responses (s : State) (e : EntryIx) (k : Nat) : (s.closeGap e k).responses = s.responses := by
  simp only [State.closeGap]
@[simp] theorem State.closeGap_rights (s : State) (e : EntryIx) (k : Nat) : (s.closeGap e k).rights = s.rights := by
  simp only [State.closeGap]
@[simp] theorem State.closeGap_adr (s : State) (e : EntryIx) (k : Nat) : (s.closeGap e k).adr = s.adr := by
  simp only [State.closeGap]
@[simp] theorem State.closeGap_admSel (s : State) (e : EntryIx) (k : Nat) : (s.closeGap e k).admSel = s.admSel := by
  simp only [State.closeGap]
@[simp] theorem State.closeGap_pending (s : State) (e : EntryIx) (k : Nat) : (s.closeGap e k).pending = s.pending := by
  simp only [State.closeGap]

/-! ### Answers, notices, responses, places at an arbiter -/

/-! `refuse` -/

@[simp] theorem State.refuse_ports (s : State) (p : Port) (r : Reason) (t : Transfer) :
    (s.refuse p r t).ports = tabUpd s.ports p (fun h => (h.toIdle false).record r t) := rfl
@[simp] theorem State.refuse_directory (s : State) (p : Port) (r : Reason) (t : Transfer) : (s.refuse p r t).directory = s.directory := rfl
@[simp] theorem State.refuse_defaults (s : State) (p : Port) (r : Reason) (t : Transfer) : (s.refuse p r t).defaults = s.defaults := rfl
@[simp] theorem State.refuse_segs (s : State) (p : Port) (r : Reason) (t : Transfer) : (s.refuse p r t).segs = s.segs := rfl
@[simp] theorem State.refuse_engines (s : State) (p : Port) (r : Reason) (t : Transfer) : (s.refuse p r t).engines = s.engines := rfl
@[simp] theorem State.refuse_leases (s : State) (p : Port) (r : Reason) (t : Transfer) : (s.refuse p r t).leases = s.leases := rfl
@[simp] theorem State.refuse_tokenCounter (s : State) (p : Port) (r : Reason) (t : Transfer) : (s.refuse p r t).tokenCounter = s.tokenCounter := rfl
@[simp] theorem State.refuse_notices (s : State) (p : Port) (r : Reason) (t : Transfer) : (s.refuse p r t).notices = s.notices := rfl
@[simp] theorem State.refuse_buffers (s : State) (p : Port) (r : Reason) (t : Transfer) : (s.refuse p r t).buffers = s.buffers := rfl
@[simp] theorem State.refuse_responses (s : State) (p : Port) (r : Reason) (t : Transfer) : (s.refuse p r t).responses = s.responses := rfl
@[simp] theorem State.refuse_rights (s : State) (p : Port) (r : Reason) (t : Transfer) : (s.refuse p r t).rights = s.rights := rfl
@[simp] theorem State.refuse_adr (s : State) (p : Port) (r : Reason) (t : Transfer) : (s.refuse p r t).adr = s.adr := rfl
@[simp] theorem State.refuse_admSel (s : State) (p : Port) (r : Reason) (t : Transfer) : (s.refuse p r t).admSel = s.admSel := rfl
@[simp] theorem State.refuse_pending (s : State) (p : Port) (r : Reason) (t : Transfer) : (s.refuse p r t).pending = s.pending := rfl

/-! `post` -/

@[simp] theorem State.post_ports (s : State) (p : Port) (k : NoticeKind) (e : Option EntryIx) (m : Option Seg) (t : Byte) :
    (s.post p k e m t).ports = s.ports := rfl
@[simp] theorem State.post_directory (s : State) (p : Port) (k : NoticeKind) (e : Option EntryIx) (m : Option Seg) (t : Byte) :
    (s.post p k e m t).directory = s.directory := rfl
@[simp] theorem State.post_defaults (s : State) (p : Port) (k : NoticeKind) (e : Option EntryIx) (m : Option Seg) (t : Byte) :
    (s.post p k e m t).defaults = s.defaults := rfl
@[simp] theorem State.post_segs (s : State) (p : Port) (k : NoticeKind) (e : Option EntryIx) (m : Option Seg) (t : Byte) :
    (s.post p k e m t).segs = s.segs := rfl
@[simp] theorem State.post_engines (s : State) (p : Port) (k : NoticeKind) (e : Option EntryIx) (m : Option Seg) (t : Byte) :
    (s.post p k e m t).engines = s.engines := rfl
@[simp] theorem State.post_leases (s : State) (p : Port) (k : NoticeKind) (e : Option EntryIx) (m : Option Seg) (t : Byte) :
    (s.post p k e m t).leases = s.leases := rfl
@[simp] theorem State.post_tokenCounter (s : State) (p : Port) (k : NoticeKind) (e : Option EntryIx) (m : Option Seg) (t : Byte) :
    (s.post p k e m t).tokenCounter = s.tokenCounter := rfl
@[simp] theorem State.post_notices (s : State) (p : Port) (k : NoticeKind) (e : Option EntryIx) (m : Option Seg) (t : Byte) :
    (s.post p k e m t).notices = tabUpd s.notices p (NoticeQueue.store k e m t) := rfl
@[simp] theorem State.post_buffers (s : State) (p : Port) (k : NoticeKind) (e : Option EntryIx) (m : Option Seg) (t : Byte) :
    (s.post p k e m t).buffers = s.buffers := rfl
@[simp] theorem State.post_responses (s : State) (p : Port) (k : NoticeKind) (e : Option EntryIx) (m : Option Seg) (t : Byte) :
    (s.post p k e m t).responses = s.responses := rfl
@[simp] theorem State.post_rights (s : State) (p : Port) (k : NoticeKind) (e : Option EntryIx) (m : Option Seg) (t : Byte) :
    (s.post p k e m t).rights = s.rights := rfl
@[simp] theorem State.post_adr (s : State) (p : Port) (k : NoticeKind) (e : Option EntryIx) (m : Option Seg) (t : Byte) :
    (s.post p k e m t).adr = s.adr := rfl
@[simp] theorem State.post_admSel (s : State) (p : Port) (k : NoticeKind) (e : Option EntryIx) (m : Option Seg) (t : Byte) :
    (s.post p k e m t).admSel = s.admSel := rfl
@[simp] theorem State.post_pending (s : State) (p : Port) (k : NoticeKind) (e : Option EntryIx) (m : Option Seg) (t : Byte) :
    (s.post p k e m t).pending = s.pending := rfl

/-! `respond` -/

@[simp] theorem State.respond_ports (s : State) (p : Port) (st : Status) (c : Byte) (b : List Byte) : (s.respond p st c b).ports = s.ports := rfl
@[simp] theorem State.respond_directory (s : State) (p : Port) (st : Status) (c : Byte) (b : List Byte) :
    (s.respond p st c b).directory = s.directory := rfl
@[simp] theorem State.respond_defaults (s : State) (p : Port) (st : Status) (c : Byte) (b : List Byte) :
    (s.respond p st c b).defaults = s.defaults := rfl
@[simp] theorem State.respond_segs (s : State) (p : Port) (st : Status) (c : Byte) (b : List Byte) : (s.respond p st c b).segs = s.segs := rfl
@[simp] theorem State.respond_engines (s : State) (p : Port) (st : Status) (c : Byte) (b : List Byte) :
    (s.respond p st c b).engines = s.engines := rfl
@[simp] theorem State.respond_leases (s : State) (p : Port) (st : Status) (c : Byte) (b : List Byte) : (s.respond p st c b).leases = s.leases := rfl
@[simp] theorem State.respond_tokenCounter (s : State) (p : Port) (st : Status) (c : Byte) (b : List Byte) :
    (s.respond p st c b).tokenCounter = s.tokenCounter := rfl
@[simp] theorem State.respond_notices (s : State) (p : Port) (st : Status) (c : Byte) (b : List Byte) :
    (s.respond p st c b).notices = s.notices := rfl
@[simp] theorem State.respond_buffers (s : State) (p : Port) (st : Status) (c : Byte) (b : List Byte) :
    (s.respond p st c b).buffers = s.buffers := rfl
@[simp] theorem State.respond_responses (s : State) (p : Port) (st : Status) (c : Byte) (b : List Byte) :
    (s.respond p st c b).responses = tabUpd s.responses p (fun _ => { status := st, echo := c, payload := b }) := rfl
@[simp] theorem State.respond_rights (s : State) (p : Port) (st : Status) (c : Byte) (b : List Byte) : (s.respond p st c b).rights = s.rights := rfl
@[simp] theorem State.respond_adr (s : State) (p : Port) (st : Status) (c : Byte) (b : List Byte) : (s.respond p st c b).adr = s.adr := rfl
@[simp] theorem State.respond_admSel (s : State) (p : Port) (st : Status) (c : Byte) (b : List Byte) : (s.respond p st c b).admSel = s.admSel := rfl
@[simp] theorem State.respond_pending (s : State) (p : Port) (st : Status) (c : Byte) (b : List Byte) :
    (s.respond p st c b).pending = s.pending := rfl

/-! `startWait` -/

@[simp] theorem State.startWait_ports (s : State) (m : Seg) (p : Port) : (s.startWait m p).ports = s.ports := rfl
@[simp] theorem State.startWait_directory (s : State) (m : Seg) (p : Port) : (s.startWait m p).directory = s.directory := rfl
@[simp] theorem State.startWait_defaults (s : State) (m : Seg) (p : Port) : (s.startWait m p).defaults = s.defaults := rfl
@[simp] theorem State.startWait_segs (s : State) (m : Seg) (p : Port) :
    (s.startWait m p).segs = tabUpd s.segs m (fun a => { a with waits := tabUpd a.waits p (fun _ => Timer.start a.waitLimit) }) := rfl
@[simp] theorem State.startWait_engines (s : State) (m : Seg) (p : Port) : (s.startWait m p).engines = s.engines := rfl
@[simp] theorem State.startWait_leases (s : State) (m : Seg) (p : Port) : (s.startWait m p).leases = s.leases := rfl
@[simp] theorem State.startWait_tokenCounter (s : State) (m : Seg) (p : Port) : (s.startWait m p).tokenCounter = s.tokenCounter := rfl
@[simp] theorem State.startWait_notices (s : State) (m : Seg) (p : Port) : (s.startWait m p).notices = s.notices := rfl
@[simp] theorem State.startWait_buffers (s : State) (m : Seg) (p : Port) : (s.startWait m p).buffers = s.buffers := rfl
@[simp] theorem State.startWait_responses (s : State) (m : Seg) (p : Port) : (s.startWait m p).responses = s.responses := rfl
@[simp] theorem State.startWait_rights (s : State) (m : Seg) (p : Port) : (s.startWait m p).rights = s.rights := rfl
@[simp] theorem State.startWait_adr (s : State) (m : Seg) (p : Port) : (s.startWait m p).adr = s.adr := rfl
@[simp] theorem State.startWait_admSel (s : State) (m : Seg) (p : Port) : (s.startWait m p).admSel = s.admSel := rfl
@[simp] theorem State.startWait_pending (s : State) (m : Seg) (p : Port) : (s.startWait m p).pending = s.pending := rfl

/-! `stopWait` -/

@[simp] theorem State.stopWait_ports (s : State) (m : Seg) (p : Port) : (s.stopWait m p).ports = s.ports := rfl
@[simp] theorem State.stopWait_directory (s : State) (m : Seg) (p : Port) : (s.stopWait m p).directory = s.directory := rfl
@[simp] theorem State.stopWait_defaults (s : State) (m : Seg) (p : Port) : (s.stopWait m p).defaults = s.defaults := rfl
@[simp] theorem State.stopWait_segs (s : State) (m : Seg) (p : Port) :
    (s.stopWait m p).segs = tabUpd s.segs m (fun a => { a with waits := tabUpd a.waits p (fun _ => .stopped) }) := rfl
@[simp] theorem State.stopWait_engines (s : State) (m : Seg) (p : Port) : (s.stopWait m p).engines = s.engines := rfl
@[simp] theorem State.stopWait_leases (s : State) (m : Seg) (p : Port) : (s.stopWait m p).leases = s.leases := rfl
@[simp] theorem State.stopWait_tokenCounter (s : State) (m : Seg) (p : Port) : (s.stopWait m p).tokenCounter = s.tokenCounter := rfl
@[simp] theorem State.stopWait_notices (s : State) (m : Seg) (p : Port) : (s.stopWait m p).notices = s.notices := rfl
@[simp] theorem State.stopWait_buffers (s : State) (m : Seg) (p : Port) : (s.stopWait m p).buffers = s.buffers := rfl
@[simp] theorem State.stopWait_responses (s : State) (m : Seg) (p : Port) : (s.stopWait m p).responses = s.responses := rfl
@[simp] theorem State.stopWait_rights (s : State) (m : Seg) (p : Port) : (s.stopWait m p).rights = s.rights := rfl
@[simp] theorem State.stopWait_adr (s : State) (m : Seg) (p : Port) : (s.stopWait m p).adr = s.adr := rfl
@[simp] theorem State.stopWait_admSel (s : State) (m : Seg) (p : Port) : (s.stopWait m p).admSel = s.admSel := rfl
@[simp] theorem State.stopWait_pending (s : State) (m : Seg) (p : Port) : (s.stopWait m p).pending = s.pending := rfl

/-! `leaveQueue` -/

@[simp] theorem State.leaveQueue_ports (s : State) (m : Seg) (p : Port) : (s.leaveQueue m p).ports = s.ports := rfl
@[simp] theorem State.leaveQueue_directory (s : State) (m : Seg) (p : Port) : (s.leaveQueue m p).directory = s.directory := rfl
@[simp] theorem State.leaveQueue_defaults (s : State) (m : Seg) (p : Port) : (s.leaveQueue m p).defaults = s.defaults := rfl
@[simp] theorem State.leaveQueue_segs (s : State) (m : Seg) (p : Port) :
    (s.leaveQueue m p).segs = tabUpd s.segs m (fun a => { a with queue := a.queue.erase p }) := rfl
@[simp] theorem State.leaveQueue_engines (s : State) (m : Seg) (p : Port) : (s.leaveQueue m p).engines = s.engines := rfl
@[simp] theorem State.leaveQueue_leases (s : State) (m : Seg) (p : Port) : (s.leaveQueue m p).leases = s.leases := rfl
@[simp] theorem State.leaveQueue_tokenCounter (s : State) (m : Seg) (p : Port) : (s.leaveQueue m p).tokenCounter = s.tokenCounter := rfl
@[simp] theorem State.leaveQueue_notices (s : State) (m : Seg) (p : Port) : (s.leaveQueue m p).notices = s.notices := rfl
@[simp] theorem State.leaveQueue_buffers (s : State) (m : Seg) (p : Port) : (s.leaveQueue m p).buffers = s.buffers := rfl
@[simp] theorem State.leaveQueue_responses (s : State) (m : Seg) (p : Port) : (s.leaveQueue m p).responses = s.responses := rfl
@[simp] theorem State.leaveQueue_rights (s : State) (m : Seg) (p : Port) : (s.leaveQueue m p).rights = s.rights := rfl
@[simp] theorem State.leaveQueue_adr (s : State) (m : Seg) (p : Port) : (s.leaveQueue m p).adr = s.adr := rfl
@[simp] theorem State.leaveQueue_admSel (s : State) (m : Seg) (p : Port) : (s.leaveQueue m p).admSel = s.admSel := rfl
@[simp] theorem State.leaveQueue_pending (s : State) (m : Seg) (p : Port) : (s.leaveQueue m p).pending = s.pending := rfl

/-! `setSegState` -/

@[simp] theorem State.setSegState_ports (s : State) (m : Seg) (st : SegState) : (s.setSegState m st).ports = s.ports := rfl
@[simp] theorem State.setSegState_directory (s : State) (m : Seg) (st : SegState) : (s.setSegState m st).directory = s.directory := rfl
@[simp] theorem State.setSegState_defaults (s : State) (m : Seg) (st : SegState) : (s.setSegState m st).defaults = s.defaults := rfl
@[simp] theorem State.setSegState_segs (s : State) (m : Seg) (st : SegState) :
    (s.setSegState m st).segs = tabUpd s.segs m (fun a => { a with state := st }) := rfl
@[simp] theorem State.setSegState_engines (s : State) (m : Seg) (st : SegState) : (s.setSegState m st).engines = s.engines := rfl
@[simp] theorem State.setSegState_leases (s : State) (m : Seg) (st : SegState) : (s.setSegState m st).leases = s.leases := rfl
@[simp] theorem State.setSegState_tokenCounter (s : State) (m : Seg) (st : SegState) : (s.setSegState m st).tokenCounter = s.tokenCounter := rfl
@[simp] theorem State.setSegState_notices (s : State) (m : Seg) (st : SegState) : (s.setSegState m st).notices = s.notices := rfl
@[simp] theorem State.setSegState_buffers (s : State) (m : Seg) (st : SegState) : (s.setSegState m st).buffers = s.buffers := rfl
@[simp] theorem State.setSegState_responses (s : State) (m : Seg) (st : SegState) : (s.setSegState m st).responses = s.responses := rfl
@[simp] theorem State.setSegState_rights (s : State) (m : Seg) (st : SegState) : (s.setSegState m st).rights = s.rights := rfl
@[simp] theorem State.setSegState_adr (s : State) (m : Seg) (st : SegState) : (s.setSegState m st).adr = s.adr := rfl
@[simp] theorem State.setSegState_admSel (s : State) (m : Seg) (st : SegState) : (s.setSegState m st).admSel = s.admSel := rfl
@[simp] theorem State.setSegState_pending (s : State) (m : Seg) (st : SegState) : (s.setSegState m st).pending = s.pending := rfl

/-! `orderPhase` -/

@[simp] theorem State.orderPhase_ports (s : State) (m : Seg) (p : Port) : (s.orderPhase m p).ports = s.ports := rfl
@[simp] theorem State.orderPhase_directory (s : State) (m : Seg) (p : Port) : (s.orderPhase m p).directory = s.directory := rfl
@[simp] theorem State.orderPhase_defaults (s : State) (m : Seg) (p : Port) : (s.orderPhase m p).defaults = s.defaults := rfl
@[simp] theorem State.orderPhase_segs (s : State) (m : Seg) (p : Port) : (s.orderPhase m p).segs = s.segs := rfl
@[simp] theorem State.orderPhase_engines (s : State) (m : Seg) (p : Port) :
    (s.orderPhase m p).engines = tabUpd s.engines m (Engine.order p (s.targetOf p) s.segs[m].shared) := rfl
@[simp] theorem State.orderPhase_leases (s : State) (m : Seg) (p : Port) : (s.orderPhase m p).leases = s.leases := rfl
@[simp] theorem State.orderPhase_tokenCounter (s : State) (m : Seg) (p : Port) : (s.orderPhase m p).tokenCounter = s.tokenCounter := rfl
@[simp] theorem State.orderPhase_notices (s : State) (m : Seg) (p : Port) : (s.orderPhase m p).notices = s.notices := rfl
@[simp] theorem State.orderPhase_buffers (s : State) (m : Seg) (p : Port) : (s.orderPhase m p).buffers = s.buffers := rfl
@[simp] theorem State.orderPhase_responses (s : State) (m : Seg) (p : Port) : (s.orderPhase m p).responses = s.responses := rfl
@[simp] theorem State.orderPhase_rights (s : State) (m : Seg) (p : Port) : (s.orderPhase m p).rights = s.rights := rfl
@[simp] theorem State.orderPhase_adr (s : State) (m : Seg) (p : Port) : (s.orderPhase m p).adr = s.adr := rfl
@[simp] theorem State.orderPhase_admSel (s : State) (m : Seg) (p : Port) : (s.orderPhase m p).admSel = s.admSel := rfl
@[simp] theorem State.orderPhase_pending (s : State) (m : Seg) (p : Port) : (s.orderPhase m p).pending = s.pending := rfl

end Sys2Proof.Machine
end

