-- ==== Sys2Proof/Laws/Ops.lean ====
section
/-! SUPPORT. What the named operations over ports, queues and engines do: a change read through its value at the place it
changes, timers, refusals (R20), breaks (R16, R102), the beginning of a recovery (R64, R104), notices stored (R135), and the
byte a response supplies (R8). -/

namespace Sys2Proof.Machine

/-! ### One change by its value -/

/-- Two changes of a port that agree on that port are one change. -/
theorem State.onPort_congr {s : State} {p : Port} {f g : HostPort → HostPort} (h : f s.ports[p] = g s.ports[p]) :
    s.onPort p f = s.onPort p g := by
  simp only [State.onPort]
  congr 1
  unfold tabUpd
  rw [h]

/-- Two changes of an arbiter that agree on that arbiter are one change. -/
theorem State.onSeg_congr {s : State} {m : Seg} {f g : Arbiter → Arbiter} (h : f s.segs[m] = g s.segs[m]) :
    s.onSeg m f = s.onSeg m g := by
  simp only [State.onSeg]
  congr 1
  unfold tabUpd
  rw [h]

/-- Two changes of an engine that agree on that engine are one change. -/
theorem State.onEngine_congr {s : State} {m : Seg} {f g : Engine → Engine} (h : f s.engines[m] = g s.engines[m]) :
    s.onEngine m f = s.onEngine m g := by
  simp only [State.onEngine]
  congr 1
  unfold tabUpd
  rw [h]

/-- A change that leaves the engine as it is changes nothing. -/
theorem State.onEngine_eq_self {s : State} {m : Seg} {f : Engine → Engine} (h : f s.engines[m] = s.engines[m]) :
    s.onEngine m f = s := by
  simp only [State.onEngine, tabUpd_eq_self s.engines m f h]

/-! ### Timers -/

/-- A timer runs exactly when it is not stopped. -/
theorem Timer.isRunning_iff (t : Timer) : t.isRunning = true ↔ t ≠ .stopped := by
  cases t <;> simp [Timer.isRunning]

/-- A tick neither starts nor stops a timer. -/
@[simp] theorem Timer.tick_isRunning (t : Timer) : t.tick.isRunning = t.isRunning := by
  cases t <;> rfl

/-- The hold timer runs exactly when a line is being timed (R73, R94). -/
theorem HoldTimer.isRunning_iff (t : HoldTimer) : t.isRunning = true ↔ t ≠ .stopped := by
  obtain ⟨c, d⟩ := t
  cases c <;> cases d <;> simp [HoldTimer.isRunning, HoldTimer.stopped, Timer.isRunning]

@[simp] theorem HoldTimer.stopped_isRunning : HoldTimer.stopped.isRunning = false := rfl

@[simp] theorem HoldTimer.stopped_line (l : Line) : HoldTimer.stopped.line l = .stopped := by cases l <;> rfl

/-- A tick neither starts nor stops the hold timer. -/
@[simp] theorem HoldTimer.tick_isRunning (t : HoldTimer) : t.tick.isRunning = t.isRunning := by
  simp [HoldTimer.tick, HoldTimer.isRunning]

/-- The timing of a line that was replaced. -/
@[simp] theorem HoldTimer.onLine_self (t : HoldTimer) (l : Line) (x : Timer) : (t.onLine l x).line l = x := by
  cases l <;> rfl

/-- The other line's timing goes on (R94, R97). -/
theorem HoldTimer.onLine_other (t : HoldTimer) {l k : Line} (h : k ≠ l) (x : Timer) : (t.onLine l x).line k = t.line k := by
  cases l <;> cases k <;> first | rfl | exact absurd rfl h

/-- The hold timer runs after a line's timing is replaced when that timing runs or the other line's did. -/
theorem HoldTimer.onLine_isRunning (t : HoldTimer) (l : Line) (x : Timer) :
    (t.onLine l x).isRunning = (x.isRunning || (t.line (match l with | .clock => .data | .data => .clock)).isRunning) := by
  cases l
  · rfl
  · exact Bool.or_comm _ _

/-- A line found low is timed after it, with the period it had or one begun now (R94). -/
theorem Engine.timeLine_line (limit : Nat) (l : Line) (e : Engine) :
    ((e.timeLine limit l).hold.line l) = if (e.hold.line l).isRunning then e.hold.line l else Timer.start limit := by
  unfold Engine.timeLine
  split
  · rfl
  · dsimp only
    split <;> exact HoldTimer.onLine_self ..

/-- A line found low leaves the timing of the other line (R97). -/
theorem Engine.timeLine_other (limit : Nat) {l k : Line} (h : k ≠ l) (e : Engine) :
    (e.timeLine limit l).hold.line k = e.hold.line k := by
  unfold Engine.timeLine
  split
  · rfl
  · dsimp only
    split <;> exact HoldTimer.onLine_other _ h _

/-- Timing a line touches the hold timer, the step and the pulse count of a recovery, and what was driven, alone. -/
theorem Engine.timeLine_frame (limit : Nat) (l : Line) (e : Engine) :
    e.timeLine limit l = { e with hold := (e.timeLine limit l).hold, recStep := (e.timeLine limit l).recStep,
                                  pulses := (e.timeLine limit l).pulses, bus := (e.timeLine limit l).bus } := by
  unfold Engine.timeLine
  split
  · rfl
  · dsimp only
    split <;> rfl

/-- The abandon timer's start is 100 ms from zero. -/
theorem abandonStart_eq : abandonStart = freshAbandon := rfl

/-! ### Refusals, breaks and recoveries -/

/-- A refusal of an address turns the port away (R20). -/
theorem State.refuse_eq (s : State) (p : Port) (r : Reason) (t : Transfer) :
    s.refuse p r t = s.onPort p (HostPort.turnedAway r t) := rfl

/-- The port's part of a break (R16). -/
theorem HostPort.breakOff_eq (t : Transfer) : HostPort.breakOff t = HostPort.brokenOff t := by
  funext h
  obtain ⟨v, d, n⟩ := t
  unfold HostPort.breakOff HostPort.brokenOff
  cases d <;> cases h.byteInHand <;> simp [HostPort.record] <;> rfl

/-- A break up to the segment's part (R102). -/
theorem State.breakPort_eq (s : State) (m : Seg) (p : Port) (t : Transfer) (c : BreakCause) :
    s.breakPort m p t c = s.afterBreak m p t c := by
  unfold State.breakPort State.afterBreak
  rw [HostPort.breakOff_eq]
  rfl

/-- The beginning of a recovery, by the segment state it gives (R64, R104). -/
theorem State.beginRecovery_eq {s : State} {m : Seg} {r : Option Port} (b : Option Port)
    (h : s.recoveringState m = .recovering r) : s.beginRecovery m b = s.inRecovery m r b := by
  unfold State.beginRecovery State.inRecovery
  rw [h]
  rfl

/-- A holder just broken leaves no resume port (R64). -/
theorem State.recoveringState_afterBreak {s : State} {m : Seg} {p : Port} {t : Transfer} {c : BreakCause}
    (h : s.segs[m].state = .active p) : (s.afterBreak m p t c).recoveringState m = .recovering none := by
  have h₁ : (s.afterBreak m p t c).segs = s.segs := rfl
  have h₂ : (s.afterBreak m p t c).ports[p].ctx = .broken t := by simp [State.afterBreak, HostPort.brokenOff]
  simp only [State.recoveringState, h₁, h, h₂]
  rfl

/-- A segment with no holder in ADDRESSING leaves no resume port (R64). -/
theorem State.recoveringState_free {s : State} {m : Seg} (h : s.segs[m].state = .idle ∨ s.segs[m].state = .fault) :
    s.recoveringState m = .recovering none := by
  rcases h with h | h <;> simp only [State.recoveringState, h]

/-- A holder in ADDRESSING becomes the resume port (R64). -/
theorem State.recoveringState_addressing {s : State} {m : Seg} {p : Port} {t : Transfer}
    (h : s.segs[m].state = .active p) (hp : s.ports[p].ctx = .addressing t) :
    s.recoveringState m = .recovering (some p) := by
  simp only [State.recoveringState, h, hp]
  rfl

/-! ### Notices (R135) -/

/-- A notice that reaches a queue with room is stored at its tail under the next sequence number, and the alert line is
asserted. -/
theorem NoticeQueue.store_room {q : NoticeQueue} (h : q.records.length < 8) (k : NoticeKind) (e : Option EntryIx)
    (m : Option Seg) (tok : Byte) :
    q.store k e m tok =
      { q with records := q.records ++ [{ kind := k, seq := q.seq + 1#8, entry := e, seg := m, token := tok }]
               seq := q.seq + 1#8
               alert := if q.records.isEmpty then true else q.alert } := by
  unfold NoticeQueue.store
  rw [if_pos (by simpa [Config.noticeCapacity] using h)]

/-- A notice that reaches a full queue is lost and counted. -/
theorem NoticeQueue.store_full {q : NoticeQueue} (h : 8 ≤ q.records.length) (k : NoticeKind) (e : Option EntryIx)
    (m : Option Seg) (tok : Byte) : q.store k e m tok = { q with lost := min 255 (q.lost + 1) } := by
  unfold NoticeQueue.store
  rw [if_neg (by simpa [Config.noticeCapacity] using h)]

/-! ### Responses (R8, R146) -/

/-- A response written is read back. -/
@[simp] theorem State.respond_self (s : State) (p : Port) (st : Status) (echo : Byte) (payload : List Byte) :
    (s.respond p st echo payload).responses[p.val] = { status := st, echo := echo, payload := payload } := by
  simp [State.respond, State.onResponse]

/-- A response written leaves every other port's response. -/
theorem State.respond_other {s : State} {p q : Port} (h : q ≠ p) (st : Status) (echo : Byte) (payload : List Byte) :
    (s.respond p st echo payload).responses[q] = s.responses[q] := by
  simp only [State.respond, State.onResponse]
  exact tabUpd_other s.responses p q _ (Ne.symm h)

end Sys2Proof.Machine
end

