-- ==== Sys2Proof/Laws/Leases.lean ====
section
/-! SUPPORT. What the reads and the shared operations of the Lease Table can do: a record found by a property, the tokens
issued (R114), a record freed (R113, R121), promotion (R122). -/

namespace Sys2Proof.Machine

/-! ### Records found -/

/-- A record that is found stands in its slot and has the property. -/
theorem State.findLease_some {s : State} {f : Lease → Bool} {i : Slot} {l : Lease} (h : s.findLease f = some (i, l)) :
    s.leases[i] = some l ∧ f l = true := by
  obtain ⟨j, -, hj⟩ := List.exists_of_findSome?_eq_some h
  cases hs : s.leases[j] with
  | none => simp only [hs] at hj; cases hj
  | some k =>
    simp only [hs] at hj
    split at hj
    · cases hj; exact ⟨hs, ‹_›⟩
    · cases hj

/-- No record is found exactly when none has the property. -/
theorem State.findLease_none {s : State} {f : Lease → Bool} :
    s.findLease f = none ↔ ∀ (i : Slot) (l : Lease), s.leases[i] = some l → f l = false := by
  unfold State.findLease
  rw [List.findSome?_eq_none_iff]
  constructor
  · intro h i l hl
    have hi := h i (List.mem_finRange i)
    simp only [hl] at hi
    cases hf : f l
    · rfl
    · rw [hf] at hi; cases hi
  · intro h i _
    cases hs : s.leases[i] with
    | none => rfl
    | some l => simp only [h i l hs]; rfl

/-- The HELD record that is found on an entry. -/
theorem State.heldOn_some {s : State} {e : EntryIx} {i : Slot} {l : Lease} (h : s.heldOn e = some (i, l)) :
    s.leases[i] = some l ∧ l.entry = e ∧ l.isHeld = true := by
  obtain ⟨h₁, h₂⟩ := State.findLease_some h
  simpa [h₁] using h₂

/-- An entry without a HELD record. -/
theorem State.heldOn_none {s : State} {e : EntryIx} :
    s.heldOn e = none ↔ ∀ (i : Slot) (l : Lease), s.leases[i] = some l → l.entry = e → l.isHeld = false := by
  unfold State.heldOn
  rw [State.findLease_none]
  simp

/-- The record that is found of a port on an entry. -/
theorem State.recordOf_some {s : State} {p : Port} {e : EntryIx} {i : Slot} {l : Lease} (h : s.recordOf p e = some (i, l)) :
    s.leases[i] = some l ∧ l.entry = e ∧ l.port = p := by
  obtain ⟨h₁, h₂⟩ := State.findLease_some h
  simpa [h₁] using h₂

/-- A port without a record on an entry. -/
theorem State.recordOf_none {s : State} {p : Port} {e : EntryIx} :
    s.recordOf p e = none ↔ ∀ (i : Slot) (l : Lease), s.leases[i] = some l → l.entry = e → l.port ≠ p := by
  unfold State.recordOf
  rw [State.findLease_none]
  simp

/-- The PENDING record that is found at a place of an entry's list. -/
theorem State.pendingAt_some {s : State} {e : EntryIx} {k : Nat} {i : Slot} {l : Lease}
    (h : s.pendingAt e k = some (i, l)) : s.leases[i] = some l ∧ l.entry = e ∧ l.isHeld = false ∧ l.order = k := by
  obtain ⟨h₁, h₂⟩ := State.findLease_some h
  simp only [Bool.and_eq_true, decide_eq_true_eq, Bool.not_eq_true', beq_iff_eq, and_assoc] at h₂
  exact ⟨h₁, h₂⟩

/-! ### Tokens (R114) -/

/-- The token counter skips 0. -/
theorem bumpToken_ne_zero (c : Byte) (h : c ≠ 0#8) : bumpToken c ≠ 0#8 := by
  revert h
  revert c
  decide

/-- A token issued is not 0. -/
theorem nextToken_ne_zero (used : List Byte) (n : Nat) (c : Byte) (h : c ≠ 0#8) : nextToken used n c ≠ 0#8 := by
  induction n generalizing c with
  | zero => exact h
  | succ n ih =>
    unfold nextToken
    split
    · exact ih _ (bumpToken_ne_zero c h)
    · exact h

/-- The value an issue takes is the counter advanced past values that HELD records have. -/
theorem nextToken_skips (used : List Byte) (n : Nat) (c : Byte) :
    ∃ k ≤ n, nextToken used n c = bumpToken^[k] c ∧ (∀ j < k, bumpToken^[j] c ∈ used) ∧
      (k < n → nextToken used n c ∉ used) := by
  induction n generalizing c with
  | zero => exact ⟨0, le_refl 0, rfl, fun j hj => absurd hj (Nat.not_lt_zero j), fun h => absurd h (Nat.not_lt_zero 0)⟩
  | succ n ih =>
    unfold nextToken
    split
    · obtain ⟨k, hk, h₁, h₂, h₃⟩ := ih (bumpToken c)
      refine ⟨k + 1, by omega, by rw [h₁]; rfl, ?_, fun h => h₃ (by omega)⟩
      intro j hj
      cases j with
      | zero => assumption
      | succ j => exact h₂ j (by omega)
    · exact ⟨0, by omega, rfl, fun j hj => absurd hj (Nat.not_lt_zero j), fun _ => ‹_›⟩

/-- The tokens of the HELD records. -/
theorem State.mem_heldTokens {s : State} {t : Byte} :
    t ∈ s.heldTokens ↔ ∃ (i : Slot) (l : Lease), s.leases[i] = some l ∧ l.isHeld = true ∧ l.token = t := by
  unfold State.heldTokens
  rw [List.mem_filterMap]
  constructor
  · rintro ⟨i, -, hi⟩
    cases hs : s.leases[i] with
    | none => simp only [hs] at hi; cases hi
    | some l =>
      simp only [hs] at hi
      split at hi
      · cases hi; exact ⟨i, l, hs, ‹_›, rfl⟩
      · cases hi
  · rintro ⟨i, l, hs, hh, rfl⟩
    exact ⟨i, List.mem_finRange i, by simp only [hs, hh]; rfl⟩

/-! ### Records changed -/

/-- Moving up changes nothing of a record but its order. -/
theorem Lease.moveUp_same (e : EntryIx) (k : Nat) (l : Lease) :
    (l.moveUp e k).port = l.port ∧ (l.moveUp e k).entry = l.entry ∧ (l.moveUp e k).gen = l.gen ∧
      (l.moveUp e k).requested = l.requested ∧ (l.moveUp e k).isHeld = l.isHeld ∧ (l.moveUp e k).token = l.token ∧
      (l.moveUp e k).remaining = l.remaining := by
  obtain ⟨p, x, g, r, st⟩ := l
  cases st with
  | held t n => exact ⟨rfl, rfl, rfl, rfl, rfl, rfl, rfl⟩
  | pending o =>
    unfold Lease.moveUp
    dsimp only
    split <;> exact ⟨rfl, rfl, rfl, rfl, rfl, rfl, rfl⟩

/-- A record's place after those behind order `k` of `e` moved forward. -/
theorem Lease.moveUp_order (e : EntryIx) (k : Nat) (l : Lease) :
    (l.moveUp e k).order = if l.isHeld = false ∧ l.entry = e ∧ k < l.order then l.order - 1 else l.order := by
  obtain ⟨p, x, g, r, st⟩ := l
  cases st with
  | held t n => simp [Lease.moveUp, Lease.order, Lease.isHeld]
  | pending o =>
    unfold Lease.moveUp
    dsimp only
    split
    · rename_i h; simp [Lease.order, Lease.isHeld, h]
    · rename_i h; simp [Lease.order, Lease.isHeld, h]

/-- Freeing a HELD record empties its slot. -/
theorem State.freeRecord_held {s : State} {i : Slot} {l : Lease} (h : l.isHeld = true) :
    s.freeRecord (i, l) = s.setLease i none := by
  simp [State.freeRecord, h]

/-- Freeing a PENDING record empties its slot and moves those behind it forward. -/
theorem State.freeRecord_pending {s : State} {i : Slot} {l : Lease} (h : l.isHeld = false) :
    s.freeRecord (i, l) = (s.setLease i none).closeGap l.entry l.order := by
  simp [State.freeRecord, h]

/-- Without a PENDING record a promotion changes nothing (R122). -/
theorem State.promote_none {s : State} {e : EntryIx} (h : s.pendingAt e 1 = none) : s.promote e = s := by
  simp only [State.promote, h]

/-- A promotion of the record of order 1 (R122). -/
theorem State.promote_some {s : State} {e : EntryIx} {i : Slot} {l : Lease} (h : s.pendingAt e 1 = some (i, l)) :
    s.promote e =
      ((((s.setLease i (some { l with status := .held s.tokenToIssue (s.clip e l.requested * Config.ticksPerMs) })).afterIssue
          s.tokenToIssue).closeGap e 1).post l.port .leaseGranted (some e) (s.segOf e) s.tokenToIssue) := by
  simp only [State.promote, h]

/-- A promotion touches the leases, the token counter and the notices alone. -/
theorem State.promote_frame (s : State) (e : EntryIx) :
    (s.promote e).ports = s.ports ∧ SegmentsSame s (s.promote e) ∧ SettingsSame s (s.promote e) ∧
      FramesSame s (s.promote e) := by
  cases h : s.pendingAt e 1 with
  | none => rw [State.promote_none h]; exact ⟨rfl, ⟨rfl, rfl⟩, ⟨rfl, rfl, rfl, rfl, rfl, rfl⟩, ⟨rfl, rfl⟩⟩
  | some x =>
    obtain ⟨i, l⟩ := x
    rw [State.promote_some h]
    refine ⟨?_, ⟨?_, ?_⟩, ⟨?_, ?_, ?_, ?_, ?_, ?_⟩, ⟨?_, ?_⟩⟩ <;>
      simp only [State.closeGap, State.post, State.onNotices, State.afterIssue, State.setLease]

end Sys2Proof.Machine
end

