-- ==== Sys2Proof/Laws/Commands.lean ====
section
/-! SUPPORT. What a command row does once its port is IDLE, the rights step, and the frame read back: the lemmas that
statements about commands cite in place of unfolding the Command Unit. -/

namespace Sys2Proof.Machine

/-- Every command row of the table is the taking of its command (R7). -/
theorem exec_row (c : Command) (p : Port) (s : State) : exec (c.row p) s = s.commandRow p c := by
  cases c with
  | lrel a b =>
    by_cases hb : b = 0#8
    · subst hb; simp [Command.row, exec, execLrelCancel]
    · simp [Command.row, exec, execLrel, hb]
  | _ => rfl

/-- A command row on an IDLE port runs the command. -/
theorem commandRow_idle {s : State} {p : Port} (h : s.ports[p].ctx = .idle) (c : Command) :
    s.commandRow p c = .next (s.runCommand p c) := by
  unfold State.commandRow; rw [if_pos h]

/-- The rights step of the model is the table of R149. -/
theorem mayIssue_iff (s : State) (p : Port) (c : Command) :
    s.mayIssue p c = true ↔ Permitted s.rights[p].rights p c := by
  cases c with
  | prst b =>
    have hp : b = portByte p ↔ b.toNat = p.val := by
      constructor
      · rintro rfl; simp [portByte]; omega
      · intro hb; apply BitVec.eq_of_toNat_eq; simp [portByte, hb]; omega
    simp [State.mayIssue, Permitted, hp]
  | _ => simp [State.mayIssue, Permitted]

/-- A command that passes the rights step goes on to its arguments step. -/
theorem runCommand_permitted {s : State} {p : Port} {c : Command} (h : Permitted s.rights[p].rights p c) :
    s.runCommand p c = s.perform p c := by
  unfold State.runCommand; rw [if_pos ((mayIssue_iff s p c).2 h)]

/-- A command that fails the rights step is answered DENIED (R144 step 3). -/
theorem runCommand_denied {s : State} {p : Port} {c : Command} (h : ¬ Permitted s.rights[p].rights p c) :
    s.runCommand p c = s.respond p .denied (opCode c.op) [] := by
  unfold State.runCommand; rw [if_neg (fun hm => h ((mayIssue_iff s p c).1 hm))]

/-- A permitted command on an IDLE port, from its arguments step on. -/
theorem exec_row_permitted {s : State} {p : Port} {c : Command} (h : MayCommand s p c) :
    exec (c.row p) s = .next (s.perform p c) := by
  rw [exec_row, commandRow_idle h.1, runCommand_permitted h.2]

/-- The argument bytes of a command build it again (R159). -/
@[simp] theorem buildCommand_args (c : Command) : buildCommand c.op c.args = some c := by
  cases c with
  | insr a b c d e f g h i =>
    exact congrArg (fun x => some (Command.insr a b c d e f g h x)) (halfOf_bytes i)
  | modr a b c d e => exact congrArg (fun x => some (Command.modr a b c d x)) (halfOf_bytes e)
  | lacq a b c => exact congrArg (fun x => some (Command.lacq a x c)) (halfOf_bytes b)
  | lren a b c => exact congrArg (fun x => some (Command.lren a b x)) (halfOf_bytes c)
  | _ => rfl

/-- The length of a command's frame is the table's (R159). -/
theorem frame_length (c : Command) : c.frame.length = frameLength c.op := by
  cases c <;> rfl

/-- A frame that spells a command is taken as that command (R143, R144). -/
theorem takeFrame_frame {s : State} {p : Port} {c : Command} (h : s.buffers[p] = { bytes := c.frame, overlong := false }) :
    s.takeFrame p = (s.onBuffer p (fun _ => FrameBuffer.reset)).runCommand p c := by
  unfold State.takeFrame
  rw [h]
  simp [Command.frame]

/-! ### Step 2 of a port reset (R129, R153) -/

/-- A port without a record on the entry: nothing is freed. -/
theorem State.freeOwn_none {s : State} {q : Port} {e : EntryIx} (h : s.recordOf q e = none) : s.freeOwn q e = s := by
  simp only [State.freeOwn, h]

/-- The port held the entry: its record is freed and the oldest request promoted. -/
theorem State.freeOwn_held {s : State} {q : Port} {e : EntryIx} {i : Slot} {l : Lease} (h : s.recordOf q e = some (i, l))
    (hl : l.isHeld = true) : s.freeOwn q e = (s.setLease i none).promote e := by
  obtain ⟨-, he, -⟩ := State.recordOf_some h
  simp only [State.freeOwn, h, hl, if_true, State.freeAndPromote, State.freeRecord_held hl, he]

/-- The port waited for the entry: its record is freed and those behind it move one place forward. -/
theorem State.freeOwn_pending {s : State} {q : Port} {e : EntryIx} {i : Slot} {l : Lease} (h : s.recordOf q e = some (i, l))
    (hl : l.isHeld = false) : s.freeOwn q e = (s.setLease i none).closeGap e l.order := by
  obtain ⟨-, he, -⟩ := State.recordOf_some h
  simp only [State.freeOwn, h, hl, State.freeRecord_pending hl, he]
  rfl

/-- One entry's part of step 2 touches the leases, the token counter and the notices alone. -/
theorem State.freeOwn_frame (s : State) (q : Port) (e : EntryIx) :
    (s.freeOwn q e).ports = s.ports ∧ SegmentsSame s (s.freeOwn q e) ∧ SettingsSame s (s.freeOwn q e) ∧
      FramesSame s (s.freeOwn q e) := by
  cases h : s.recordOf q e with
  | none => rw [State.freeOwn_none h]; exact ⟨rfl, ⟨rfl, rfl⟩, ⟨rfl, rfl, rfl, rfl, rfl, rfl⟩, ⟨rfl, rfl⟩⟩
  | some x =>
    obtain ⟨i, l⟩ := x
    cases hl : l.isHeld with
    | true =>
      rw [State.freeOwn_held h hl]
      obtain ⟨a, ⟨b₁, b₂⟩, ⟨c₁, c₂, c₃, c₄, c₅, c₆⟩, ⟨d₁, d₂⟩⟩ := (s.setLease i none).promote_frame e
      exact ⟨a, ⟨b₁, b₂⟩, ⟨c₁, c₂, c₃, c₄, c₅, c₆⟩, ⟨d₁, d₂⟩⟩
    | false =>
      rw [State.freeOwn_pending h hl]
      refine ⟨?_, ⟨?_, ?_⟩, ⟨?_, ?_, ?_, ?_, ?_, ?_⟩, ⟨?_, ?_⟩⟩ <;> simp only [State.closeGap, State.setLease]

/-- Step 2 as a whole touches the leases, the token counter and the notices alone. -/
theorem State.freeAllOwn_frame (s : State) (q : Port) :
    (s.freeAllOwn q).ports = s.ports ∧ SegmentsSame s (s.freeAllOwn q) ∧ SettingsSame s (s.freeAllOwn q) ∧
      FramesSame s (s.freeAllOwn q) := by
  unfold State.freeAllOwn
  generalize allEntries = es
  induction es generalizing s with
  | nil => exact ⟨rfl, ⟨rfl, rfl⟩, ⟨rfl, rfl, rfl, rfl, rfl, rfl⟩, ⟨rfl, rfl⟩⟩
  | cons e es ih =>
    obtain ⟨a, ⟨b₁, b₂⟩, ⟨c₁, c₂, c₃, c₄, c₅, c₆⟩, ⟨d₁, d₂⟩⟩ := ih (s.freeOwn q e)
    obtain ⟨a', ⟨b₁', b₂'⟩, ⟨c₁', c₂', c₃', c₄', c₅', c₆'⟩, ⟨d₁', d₂'⟩⟩ := s.freeOwn_frame q e
    exact ⟨a.trans a', ⟨b₁.trans b₁', b₂.trans b₂'⟩,
      ⟨c₁.trans c₁', c₂.trans c₂', c₃.trans c₃', c₄.trans c₄', c₅.trans c₅', c₆.trans c₆'⟩, ⟨d₁.trans d₁', d₂.trans d₂'⟩⟩

end Sys2Proof.Machine
end

