-- ==== Sys2Proof/Laws/Directory.lean ====
section
/-! SUPPORT. What the reads of the Route Directory can do: ranges that meet, ports common to two masks, the entry found for a
port's address (R25), and the entry found in conflict (R30, R33). -/

namespace Sys2Proof.Machine

/-- An address lies in a range exactly when it is between the base and the last address. -/
theorem inRange_iff (b : Addr) (sp : Span) (a : Addr) :
    inRange b sp a = true ↔ b.toNat ≤ a.toNat ∧ a.toNat < b.toNat + sp.size := by
  simp [inRange]

/-- A span has at least one address. -/
theorem Span.size_pos (sp : Span) : 0 < sp.size := by
  cases sp <;> decide

/-- Two ranges meet exactly when they have an address in common. -/
theorem rangesMeet_iff (b₁ : Addr) (s₁ : Span) (b₂ : Addr) (s₂ : Span) :
    rangesMeet b₁ s₁ b₂ s₂ = true ↔ ∃ a, inRange b₁ s₁ a = true ∧ inRange b₂ s₂ a = true := by
  have h₁ := s₁.size_pos
  have h₂ := s₂.size_pos
  simp only [inRange_iff, rangesMeet, Bool.and_eq_true, decide_eq_true_eq]
  constructor
  · rintro ⟨h, k⟩
    rcases le_total b₁.toNat b₂.toNat with hle | hle
    · exact ⟨b₂, ⟨hle, k⟩, le_refl _, by omega⟩
    · exact ⟨b₁, ⟨le_refl _, by omega⟩, hle, h⟩
  · rintro ⟨a, ⟨h, k⟩, h', k'⟩
    omega

/-- Two masks meet exactly when they have a port in common. -/
theorem masksMeet_iff (m n : PortMask) : (m &&& n != 0#4) = true ↔ ∃ p : Port, hasPort m p = true ∧ hasPort n p = true := by
  revert m n
  decide

/-- The visible-conflict condition of R30 and R33, with its port and its address. -/
theorem visibleConflict_iff (r o : Route) : visibleConflict r o = true ↔
    (∃ p : Port, hasPort r.vis p = true ∧ hasPort o.vis p = true) ∧
      ∃ a, inRange r.vbase r.span a = true ∧ inRange o.vbase o.span a = true := by
  unfold visibleConflict
  rw [Bool.and_eq_true, masksMeet_iff, rangesMeet_iff]

/-- The target-conflict condition of R30, with its address. -/
theorem targetConflict_iff (r o : Route) : targetConflict r o = true ↔
    r.seg = o.seg ∧ ∃ a, inRange r.tbase r.span a = true ∧ inRange o.tbase o.span a = true := by
  unfold targetConflict
  rw [Bool.and_eq_true, decide_eq_true_eq, rangesMeet_iff]

/-- The entry found for a port's address is INSTALLED and seen. -/
theorem State.entryAt_some {s : State} {p : Port} {a : Addr} {e : EntryIx} (h : s.entryAt p a = some e) :
    ∃ r, s.route e = some r ∧ r.sees p a = true := by
  have h₁ := List.find?_some h
  cases hr : s.route e with
  | none => simp only [hr] at h₁; cases h₁
  | some r => simp only [hr] at h₁; exact ⟨r, rfl, h₁⟩

/-- No entry is found exactly when the port sees the address in none. -/
theorem State.entryAt_none {s : State} {p : Port} {a : Addr} :
    s.entryAt p a = none ↔ ∀ (e : EntryIx) (r : Route), s.route e = some r → r.sees p a = false := by
  unfold State.entryAt
  rw [List.find?_eq_none]
  constructor
  · intro h e r hr
    have he := h e (List.mem_finRange e)
    simp only [hr] at he
    simpa using he
  · intro h e _
    cases hr : s.route e with
    | none => simp
    | some r => simp [h e r hr]

/-- No entry is in conflict with an INSR exactly when each other INSTALLED one meets neither condition of R30. -/
theorem State.insrConflict_none {s : State} {e : EntryIx} {r : Route} :
    s.insrConflict e r = none ↔ ∀ (i : EntryIx) (o : Route), i ≠ e → s.route i = some o →
      visibleConflict r o = false ∧ targetConflict r o = false := by
  unfold State.insrConflict
  rw [List.find?_eq_none]
  constructor
  · intro h i o hi ho
    have hx := h i (List.mem_finRange i)
    simp only [ho] at hx
    simpa [hi] using hx
  · intro h i _
    cases ho : s.route i with
    | none => simp
    | some o =>
      by_cases hi : i = e
      · simp [hi]
      · simp [h i o hi ho]

/-- No entry is in conflict with a MODR exactly when no other INSTALLED one is in visible conflict (R33). -/
theorem State.modrConflict_none {s : State} {e : EntryIx} {r : Route} :
    s.modrConflict e r = none ↔ ∀ (i : EntryIx) (o : Route), i ≠ e → s.route i = some o → visibleConflict r o = false := by
  unfold State.modrConflict
  rw [List.find?_eq_none]
  constructor
  · intro h i o hi ho
    have hx := h i (List.mem_finRange i)
    simp only [ho] at hx
    simpa [hi] using hx
  · intro h i _
    cases ho : s.route i with
    | none => simp
    | some o =>
      by_cases hi : i = e
      · simp [hi]
      · simp [h i o hi ho]

end Sys2Proof.Machine
end

