-- ==== Sys2Proof/Laws/PerInstr.lean ====
section
/-! SUPPORT. One statement for every row of the table: the row of a command that a frame carries is the row that this very
frame spells (R144, R159). The rows of bus events and expiries, and BAD_COMMAND, are carried by no frame of a command. -/

namespace Sys2Proof.Laws.FrameMatches
open Sys2Proof Sys2Proof.Machine

/-- The port and the command of a row that a command frame carries. -/
def taken : Instr → Option (Port × Command)
  | .deviceReset .. => none
  | .start .. => none
  | .repeatedStart .. => none
  | .addressByte .. => none
  | .dataByte .. => none
  | .hostAcknowledge .. => none
  | .hostNotAcknowledge .. => none
  | .stop .. => none
  | .abandonExpiry .. => none
  | .waitExpiry .. => none
  | .lineCheckPassed .. => none
  | .targetAcknowledgesAddress .. => none
  | .targetNack .. => none
  | .writeByteAnswered .. => none
  | .readByteFetched .. => none
  | .closingByteFinished .. => none
  | .stopComplete .. => none
  | .holdTimerExpiry .. => none
  | .recoveryPulse .. => none
  | .recoverySucceeded .. => none
  | .foreignStart .. => none
  | .foreignStop .. => none
  | .arbitrationLoss .. => none
  | .leaseExpiry .. => none
  | .insr p a b c d e f g h i => some (p, .insr a b c d e f g h i)
  | .delr p a => some (p, .delr a)
  | .modr p a b c d e => some (p, .modr a b c d e)
  | .rdrt p a => some (p, .rdrt a)
  | .dflt p a b => some (p, .dflt a b)
  | .lacq p a b c => some (p, .lacq a b c)
  | .lren p a b c => some (p, .lren a b c)
  | .lrel p a b => some (p, .lrel a b)
  | .lrelCancel p a => some (p, .lrel a 0#8)
  | .lrev p a => some (p, .lrev a)
  | .lqry p a => some (p, .lqry a)
  | .scfg p a b c d e => some (p, .scfg a b c d e)
  | .ssta p a => some (p, .ssta a)
  | .srcv p a => some (p, .srcv a)
  | .nfet p => some (p, .nfet)
  | .psta p a => some (p, .psta a)
  | .rght p a b c => some (p, .rght a b c)
  | .prst p a => some (p, .prst a)
  | .idnt p => some (p, .idnt)
  | .badCommand .. => none
  | .lineHeld .. => none
  | .lineReleased .. => none

/-- A well-formed row of a command is the row of the command that its own frame spells. -/
def Statement (i : Instr) : Prop :=
  i.wf = true → ∀ (p : Port) (c : Command), taken i = some (p, c) →
    c.row p = i ∧ opOfCode (opCode c.op) = some c.op ∧ buildCommand c.op c.args = some c

/-- A row whose command's row it is keeps the statement. -/
theorem of_taken {i : Instr} {p : Port} {c : Command} (h : taken i = some (p, c)) (hr : i.wf = true → c.row p = i) :
    Statement i := by
  intro hw q d hd
  rw [h] at hd
  cases hd
  exact ⟨hr hw, opOfCode_opCode _, buildCommand_args _⟩

/-- A row that no command frame carries keeps the statement. -/
theorem of_none {i : Instr} (h : taken i = none) : Statement i := by
  intro _ p c hc
  rw [h] at hc
  cases hc

theorem deviceReset (adr admSel : BitVec 2) : Statement (.deviceReset adr admSel) := of_none rfl
theorem start (p : Port) : Statement (.start p) := of_none rfl
theorem repeatedStart (p : Port) : Statement (.repeatedStart p) := of_none rfl
theorem addressByte (p : Port) (a : Addr) (d : Dir) : Statement (.addressByte p a d) := of_none rfl
theorem dataByte (p : Port) (b : Byte) : Statement (.dataByte p b) := of_none rfl
theorem hostAcknowledge (p : Port) : Statement (.hostAcknowledge p) := of_none rfl
theorem hostNotAcknowledge (p : Port) : Statement (.hostNotAcknowledge p) := of_none rfl
theorem stop (p : Port) : Statement (.stop p) := of_none rfl
theorem abandonExpiry (p : Port) : Statement (.abandonExpiry p) := of_none rfl
theorem waitExpiry (p : Port) : Statement (.waitExpiry p) := of_none rfl
theorem lineCheckPassed (m : Seg) : Statement (.lineCheckPassed m) := of_none rfl
theorem targetAcknowledgesAddress (m : Seg) : Statement (.targetAcknowledgesAddress m) := of_none rfl
theorem targetNack (m : Seg) : Statement (.targetNack m) := of_none rfl
theorem writeByteAnswered (m : Seg) (acked : Bool) : Statement (.writeByteAnswered m acked) := of_none rfl
theorem readByteFetched (m : Seg) (b : Byte) : Statement (.readByteFetched m b) := of_none rfl
theorem closingByteFinished (m : Seg) (acked : Bool) : Statement (.closingByteFinished m acked) := of_none rfl
theorem stopComplete (m : Seg) : Statement (.stopComplete m) := of_none rfl
theorem holdTimerExpiry (m : Seg) : Statement (.holdTimerExpiry m) := of_none rfl
theorem recoveryPulse (m : Seg) (dataHigh : Bool) : Statement (.recoveryPulse m dataHigh) := of_none rfl
theorem recoverySucceeded (m : Seg) : Statement (.recoverySucceeded m) := of_none rfl
theorem foreignStart (m : Seg) : Statement (.foreignStart m) := of_none rfl
theorem foreignStop (m : Seg) (linesHigh : Bool) : Statement (.foreignStop m linesHigh) := of_none rfl
theorem arbitrationLoss (m : Seg) : Statement (.arbitrationLoss m) := of_none rfl
theorem leaseExpiry (e : EntryIx) : Statement (.leaseExpiry e) := of_none rfl
theorem insr (p : Port) (index visibleBase span segment targetBase visMask wpMask mode : Byte) (maxLease : Half) :
    Statement (.insr p index visibleBase span segment targetBase visMask wpMask mode maxLease) := of_taken rfl (fun _ => rfl)
theorem delr (p : Port) (index : Byte) : Statement (.delr p index) := of_taken rfl (fun _ => rfl)
theorem modr (p : Port) (index visMask wpMask mode : Byte) (maxLease : Half) :
    Statement (.modr p index visMask wpMask mode maxLease) := of_taken rfl (fun _ => rfl)
theorem rdrt (p : Port) (index : Byte) : Statement (.rdrt p index) := of_taken rfl (fun _ => rfl)
theorem dflt (p : Port) (port segment : Byte) : Statement (.dflt p port segment) := of_taken rfl (fun _ => rfl)
theorem lacq (p : Port) (index : Byte) (duration : Half) (wait : Byte) :
    Statement (.lacq p index duration wait) := of_taken rfl (fun _ => rfl)
theorem lren (p : Port) (index token : Byte) (duration : Half) :
    Statement (.lren p index token duration) := of_taken rfl (fun _ => rfl)
theorem lrel (p : Port) (index token : Byte) :
    Statement (.lrel p index token) := of_taken rfl (fun h => if_neg (by simpa [Instr.wf] using h))
theorem lrelCancel (p : Port) (index : Byte) : Statement (.lrelCancel p index) := of_taken rfl (fun _ => rfl)
theorem lrev (p : Port) (index : Byte) : Statement (.lrev p index) := of_taken rfl (fun _ => rfl)
theorem lqry (p : Port) (index : Byte) : Statement (.lqry p index) := of_taken rfl (fun _ => rfl)
theorem scfg (p : Port) (segment enable shared waitLimit holdLimit : Byte) :
    Statement (.scfg p segment enable shared waitLimit holdLimit) := of_taken rfl (fun _ => rfl)
theorem ssta (p : Port) (segment : Byte) : Statement (.ssta p segment) := of_taken rfl (fun _ => rfl)
theorem srcv (p : Port) (segment : Byte) : Statement (.srcv p segment) := of_taken rfl (fun _ => rfl)
theorem nfet (p : Port) : Statement (.nfet p) := of_taken rfl (fun _ => rfl)
theorem psta (p : Port) (port : Byte) : Statement (.psta p port) := of_taken rfl (fun _ => rfl)
theorem rght (p : Port) (port rights quota : Byte) : Statement (.rght p port rights quota) := of_taken rfl (fun _ => rfl)
theorem prst (p : Port) (port : Byte) : Statement (.prst p port) := of_taken rfl (fun _ => rfl)
theorem idnt (p : Port) : Statement (.idnt p) := of_taken rfl (fun _ => rfl)
theorem badCommand (p : Port) (code : Byte) : Statement (.badCommand p code) := of_none rfl
theorem lineHeld (m : Seg) (line : Line) : Statement (.lineHeld m line) := of_none rfl
theorem lineReleased (m : Seg) (line : Line) : Statement (.lineReleased m line) := of_none rfl

end Sys2Proof.Laws.FrameMatches
end

