-- ==== Sys2Proof/Laws/Relay.lean ====
section
/-! SUPPORT. What the shared operations of the relay path can do: a queued port refused, the queue served, a segment handed
over (R63) and released (R62), and an address phase ordered (R76). -/

namespace Sys2Proof.Machine

/-! ### Refusing queued ports -/

/-- A queued port in WAITING is turned away and its wait timer stops. -/
theorem State.refuseWaiter_waiting {s : State} {m : Seg} {p : Port} {t : Transfer} (r : Reason)
    (h : s.ports[p].ctx = .waiting t) : s.refuseWaiter m r p = (s.stopWait m p).onPort p (HostPort.turnedAway r t) := by
  simp only [State.refuseWaiter, h]
  rfl

/-- A resume port in ADDRESSING is turned away and its wait timer stops. -/
theorem State.refuseWaiter_addressing {s : State} {m : Seg} {p : Port} {t : Transfer} (r : Reason)
    (h : s.ports[p].ctx = .addressing t) : s.refuseWaiter m r p = (s.stopWait m p).onPort p (HostPort.turnedAway r t) := by
  simp only [State.refuseWaiter, h]
  rfl

/-- The refusal of a queued port changes only ports and arbiters. -/
theorem State.refuseWaiter_frame (s : State) (m : Seg) (r : Reason) (p : Port) :
    (s.refuseWaiter m r p).engines = s.engines ∧ (s.refuseWaiter m r p).notices = s.notices ∧
      SettingsSame s (s.refuseWaiter m r p) ∧ LeasesSame s (s.refuseWaiter m r p) ∧
      FramesSame s (s.refuseWaiter m r p) := by
  unfold State.refuseWaiter
  cases s.ports[p].ctx.transfer? <;> exact ⟨rfl, rfl, ⟨rfl, rfl, rfl, rfl, rfl, rfl⟩, ⟨rfl, rfl⟩, ⟨rfl, rfl⟩⟩

/-- The refusal of a queued port leaves the other ports alone. -/
theorem State.refuseWaiter_other (s : State) (m : Seg) (r : Reason) (p : Port) : OtherPortsSame p s (s.refuseWaiter m r p) := by
  intro q hq
  unfold State.refuseWaiter
  cases s.ports[p].ctx.transfer? with
  | none => rfl
  | some t => exact tabUpd_other s.ports p q _ (Ne.symm hq)

/-- The refusal of a queue changes only ports and arbiters. -/
theorem State.refuseAll_frame (m : Seg) (r : Reason) (ps : List Port) (s : State) :
    (State.refuseAll m r ps s).engines = s.engines ∧ (State.refuseAll m r ps s).notices = s.notices ∧
      SettingsSame s (State.refuseAll m r ps s) ∧ LeasesSame s (State.refuseAll m r ps s) ∧
      FramesSame s (State.refuseAll m r ps s) := by
  induction ps generalizing s with
  | nil => exact ⟨rfl, rfl, ⟨rfl, rfl, rfl, rfl, rfl, rfl⟩, ⟨rfl, rfl⟩, ⟨rfl, rfl⟩⟩
  | cons p ps ih =>
    obtain ⟨a₁, a₂, ⟨b₁, b₂, b₃, b₄, b₅, b₆⟩, ⟨c₁, c₂⟩, d₁, d₂⟩ := ih (s.refuseWaiter m r p)
    obtain ⟨e₁, e₂, ⟨f₁, f₂, f₃, f₄, f₅, f₆⟩, ⟨g₁, g₂⟩, h₁, h₂⟩ := s.refuseWaiter_frame m r p
    exact ⟨a₁.trans e₁, a₂.trans e₂,
      ⟨b₁.trans f₁, b₂.trans f₂, b₃.trans f₃, b₄.trans f₄, b₅.trans f₅, b₆.trans f₆⟩, ⟨c₁.trans g₁, c₂.trans g₂⟩,
      ⟨d₁.trans h₁, d₂.trans h₂⟩⟩

/-! ### The queue served -/

/-- An empty queue leaves the segment IDLE (R63 way 3). -/
theorem State.serve_nil (m : Seg) (s : State) :
    State.serve m [] s = s.onSeg m (fun a => { a with queue := [], state := .idle }) := by
  simp only [State.serve, State.setSegState, State.onSeg_onSeg]

/-- The head that the check at grant accepts becomes the holder (R63 way 2). -/
theorem State.serve_granted {m : Seg} {p : Port} {rest : List Port} {s : State} {t : Transfer}
    (h : s.ports[p].ctx = .waiting t) (hc : s.checkAtGrant p t.dir t.snap = none) :
    State.serve m (p :: rest) s = (s.onSeg m (fun a => { a with queue := rest })).grant m p t := by
  simp only [State.serve, h, hc]

/-- The head that the check at grant refuses is answered, and the next is served (R63 way 2). -/
theorem State.serve_refused {m : Seg} {p : Port} {rest : List Port} {s : State} {t : Transfer} {r : Reason}
    (h : s.ports[p].ctx = .waiting t) (hc : s.checkAtGrant p t.dir t.snap = some r) :
    State.serve m (p :: rest) s =
      State.serve m rest ((s.onSeg m (fun a => { a with queue := rest })).refuseWaiter m r p) := by
  simp only [State.serve, h, hc]

/-- Serving a queue changes no engine but the segment's own, and that only by ordering an address phase. -/
theorem State.serve_engines (m : Seg) (ps : List Port) (s : State) :
    (State.serve m ps s).engines = s.engines ∨
      ∃ p t sh, (State.serve m ps s).engines = tabUpd s.engines m (Engine.order p t sh) := by
  induction ps generalizing s with
  | nil => exact .inl rfl
  | cons p ps ih =>
    unfold State.serve
    dsimp only
    split
    · split
      · exact .inr ⟨_, _, _, rfl⟩
      · have h := ih ((s.onSeg m (fun a => { a with queue := ps })).refuseWaiter m ‹_› p)
        rw [(State.refuseWaiter_frame _ _ _ _).1] at h
        exact h
    · exact ih ((s.onSeg m (fun a => { a with queue := ps })).stopWait m p)

/-! ### Hand-over and release -/

/-- The hand-over of a segment without queue and pending disable leaves it IDLE. -/
theorem State.handOver_empty {s : State} {m : Seg} (hq : s.segs[m].queue = []) (hd : s.segs[m].disablePending = false) :
    s.handOver m = s.onSeg m (fun a => { a with queue := [], state := .idle }) := by
  unfold State.handOver
  rw [if_neg (by simpa using hd), hq, State.serve_nil]

/-- The hand-over of a segment with a pending disable (R63 way 1). -/
theorem State.handOver_disabled {s : State} {m : Seg} (hd : s.segs[m].disablePending = true) :
    s.handOver m = s.disableNow m := by
  unfold State.handOver
  rw [if_pos hd]

/-- The hand-over of a segment without a pending disable serves its queue. -/
theorem State.handOver_serves {s : State} {m : Seg} (hd : s.segs[m].disablePending = false) :
    s.handOver m = State.serve m s.segs[m].queue s := by
  unfold State.handOver
  rw [if_neg (by simpa using hd)]

/-- A hand-over changes no engine but the segment's own, and that only by ordering an address phase. -/
theorem State.handOver_engines (m : Seg) (s : State) :
    (s.handOver m).engines = s.engines ∨
      ∃ p t sh, (s.handOver m).engines = tabUpd s.engines m (Engine.order p t sh) := by
  unfold State.handOver
  split
  · exact .inl (State.refuseAll_frame _ _ _ _).1
  · exact State.serve_engines m _ s

/-- An order leaves an engine that drives a stop in STOPPING (R76). -/
theorem Engine.order_stopping {e : Engine} (h : e.state = .stopping) (p : Port) (t : Option (Addr × Dir)) (sh : Bool) :
    (Engine.order p t sh e).state = .stopping := by
  unfold Engine.order
  dsimp only
  split
  · exact h
  · simp only [h]

/-- After the hand-over of a segment whose engine drives a stop no line check is left to settle. -/
theorem State.settle_handOver {s : State} {m : Seg} (h : s.engines[m].state = .stopping) :
    (s.handOver m).onEngine m Engine.settle = s.handOver m := by
  have hx : (s.handOver m).engines[m].state = .stopping := by
    rcases State.handOver_engines m s with h₁ | ⟨p, t, sh, h₁⟩
    · simp only [h₁, h]
    · simp only [h₁, tabUpd_self]
      exact Engine.order_stopping h p t sh
  exact State.onEngine_eq_self (by simp only [Engine.settle, hx])

/-- Changes of one segment's engine and arbiter, gathered. -/
theorem State.gather (s : State) (m : Seg) (f g : Engine → Engine) (h k : Arbiter → Arbiter) :
    (((s.onEngine m f).onSeg m h).onSeg m k).onEngine m g =
      (s.onSeg m (fun a => k (h a))).onEngine m (fun e => g (f e)) := by
  rw [State.onSeg_onSeg]
  exact State.onEngine_onEngine (s.onSeg m (fun a => k (h a))) m f g

/-- The release of a segment without queue and pending disable: IDLE, the holder's wait timer stopped, the engine's service
ended. -/
theorem State.release_empty {s : State} {m : Seg} (p : Port) (hq : s.segs[m].queue = [])
    (hd : s.segs[m].disablePending = false) :
    s.release m p =
      (s.onSeg m (fun a => { a with state := .idle, queue := [], waits := tabUpd a.waits p (fun _ => .stopped) })).onEngine m
        (fun e => e.endService.settle) := by
  unfold State.release State.releaseBy
  rw [State.handOver_empty (by simpa using hq) (by simpa using hd)]
  unfold State.stopWait
  rw [State.gather]

/-! ### Arrival (R58) -/

/-- An accepted transfer on an IDLE segment makes its port the holder. -/
theorem State.arrive_idle {s : State} {p : Port} {t : Transfer} (h : s.segs[t.snap.seg].state = .idle) :
    s.arrive p t = (s.startWait t.snap.seg p).grant t.snap.seg p t := by
  simp only [State.arrive, h]

/-- An accepted transfer on an ACTIVE segment joins the queue. -/
theorem State.arrive_active {s : State} {p q : Port} {t : Transfer} (h : s.segs[t.snap.seg].state = .active q) :
    s.arrive p t = (s.startWait t.snap.seg p).enqueue t.snap.seg p t := by
  simp only [State.arrive, h]

/-- An accepted transfer on a RECOVERING segment joins the queue while fewer than 3 ports wait, and is otherwise refused. -/
theorem State.arrive_recovering {s : State} {p : Port} {t : Transfer} {r : Option Port}
    (h : s.segs[t.snap.seg].state = .recovering r) :
    s.arrive p t = if s.segs[t.snap.seg].queue.length < 3 then (s.startWait t.snap.seg p).enqueue t.snap.seg p t
      else s.refuse p .waitExpired t := by
  simp only [State.arrive, h]
  rfl

end Sys2Proof.Machine
end

