-- ==== Sys2Proof/Tests/Slice0.lean ====
section
/-! SUPPORT. Tests of the model: the smoke test of well-formedness, one step of each row against the worked sequences and the
rules of the spec, and for each statement with hypotheses a state that meets them. -/

namespace Sys2Proof.Tests
open Sys2Proof Sys2Proof.Machine

set_option maxRecDepth 8000

/-- The outcome is a next state of which `f` holds. -/
def after (r : Result) (f : State → Bool) : Bool :=
  match r with
  | .next t => f t
  | _ => false

/-- The outcome is the refusal `x`. -/
def refusedBy (r : Result) (x : Refusal) : Bool :=
  match r with
  | .refused y => y = x
  | _ => false

/-! ### Small states, each a change of the state after reset -/

/-- Entry 16 of Sequence 1. -/
def route16 : Route :=
  { vbase := 0x50, span := .one, seg := 6, tbase := 0x50, vis := 0b0111, wp := 0, mode := .opened, maxLease := 1000 }
/-- The part with entry 16 INSTALLED. -/
def routed : State := State.reset.onEntry 16 (fun _ => { gen := 1, route := some route16 })
/-- Entry 25 of Sequence 2. -/
def route25 : Route :=
  { vbase := 0x58, span := .one, seg := 0, tbase := 0x48, vis := 0b0011, wp := 0, mode := .exclusive, maxLease := 250 }
/-- The part of Sequence 2 with its token counter at 40. -/
def exclusive : State := { State.reset.onEntry 25 (fun _ => { gen := 2, route := some route25 }) with tokenCounter := 40 }
/-- Sequence 2 at t = 0: H0 has the lease, with 200 ms. -/
def leased : State :=
  { exclusive with
    tokenCounter := 41
    leases := exclusive.leases.set 0 (some { port := 0, entry := 25, gen := 2, requested := 200, status := .held 40 200000 }) }
/-- Sequence 2 at t = 3: H1 waits for the lease, having asked for 300 ms. -/
def awaited : State :=
  { leased with
    leases := leased.leases.set 1 (some { port := 1, entry := 25, gen := 2, requested := 300, status := .pending 1 }) }
/-- Every slot of the Lease Table taken, on entries 0 to 15 by H0. -/
def fullTable : State :=
  { leased with
    leases := Vector.ofFn (fun i => some
      { port := 0, entry := ⟨i.val, by omega⟩, gen := 2, requested := 1, status := .held (BitVec.ofNat 8 (i.val + 1)) 1 })
    rights := leased.rights.set 0 { rights := ⟨true, true, true, true⟩, quota := 16 } }

/-- A write and a read of 0x50 through entry 16. -/
def wr : Transfer := { vaddr := 0x50, dir := .write, snap := { entry := some (16, 1), seg := 6, target := 0x50 } }
@[inherit_doc wr] def rd : Transfer := { wr with dir := .read }
/-- Port H0 in a context, with S6 and its engine as given. -/
def onS6 (h : HostPort → HostPort) (a : Arbiter → Arbiter) (e : Engine → Engine) : State :=
  ((routed.onPort 0 h).onSeg 6 a).onEngine 6 e
/-- H0 writes on S6, with no byte in hand. -/
def writing : State :=
  onS6 (fun h => { h with ctx := .relayWrite wr, abandon := .running 100000 0 }) (fun a => { a with state := .active 0 })
    (fun e => { e with state := .writing, served := some 0, target := some (0x50, .write), busOwned := true })
/-- H0 writes on S6, with a byte in hand. -/
def clocking : State :=
  onS6 (fun h => { h with ctx := .relayWrite wr, byteInHand := true, clockHeld := true })
    (fun a => { a with state := .active 0 })
    (fun e => { e with state := .writing, served := some 0, target := some (0x50, .write), busOwned := true
                       activity := .clocking })
/-- H0 reads on S6, with a byte supplied and its slot open. -/
def reading : State :=
  onS6 (fun h => { h with ctx := .relayRead rd, abandon := .running 100000 0 }) (fun a => { a with state := .active 0 })
    (fun e => { e with state := .reading, served := some 0, target := some (0x50, .read), busOwned := true
                       activity := .slotOpen })
/-- H0 reads on S6, with a byte being fetched. -/
def fetching : State :=
  onS6 (fun h => { h with ctx := .relayRead rd, byteInHand := true, clockHeld := true })
    (fun a => { a with state := .active 0 })
    (fun e => { e with state := .reading, served := some 0, target := some (0x50, .read), busOwned := true
                       activity := .clocking })
/-- H0 addresses its target on S6, with the engine in state `st` and the wait timer running. -/
def addressing (t : Transfer) (e : Engine → Engine) : State :=
  onS6 (fun h => { h with ctx := .addressing t, clockHeld := true })
    (fun a => { a with state := .active 0, waits := a.waits.set 0 (.running 25000 0) })
    (fun x => e { x with served := some 0, target := some (0x50, t.dir) })
/-- The engine of `addressing` at its line check. -/
def starting (t : Transfer) : State := addressing t (fun e => { e with state := .starting })
/-- The engine of `addressing` clocking the address byte. -/
def addressed (t : Transfer) : State :=
  addressing t (fun e => { e with state := .address, activity := .clocking, busOwned := true })
/-- H0 waits for S6, which recovers with no resume port; `pulses` pulses are driven. -/
def recovering (pulses : Nat) (r : RecStep) : State :=
  onS6 (fun h => { h with ctx := .waiting rd, clockHeld := true })
    (fun a => { a with state := .recovering none, queue := [0], waits := a.waits.set 0 (.running 25000 0)
                       recoveryCount := 5 })
    (fun e => { e with state := .recovering, busOwned := true, pulses := pulses, recStep := r, brokenPort := some 1 })
/-- S6 with no port, its engine as given. -/
def freeS6 (e : Engine → Engine) : State := routed.onEngine 6 e
/-- H0's port changed. -/
def h0 (f : HostPort → HostPort) : State := routed.onPort 0 f
/-- Port `p` expects an address byte. -/
def expecting (p : Port) (s : State) : State := s.onPort p (fun h => { h with addrExpected := true })
/-- Every port holds every right. -/
def allRights (s : State) : State :=
  { s with rights := Vector.replicate 4 { rights := ⟨true, true, true, true⟩, quota := 4 } }

/-! ### Well-formedness -/

/-- LREL with token 0 is the row LREL_CANCEL, and no term of LREL. -/
theorem test_wf_lrel : (Instr.lrel 0 25 0).wf = false ∧ (Instr.lrel 0 25 1).wf = true ∧ (Instr.lrelCancel 0 25).wf = true := by
  decide
/-- BAD_COMMAND carries no command code. -/
theorem test_wf_badCommand : (Instr.badCommand 0 0x10).wf = false ∧ (Instr.badCommand 0 0x53).wf = false ∧
    (Instr.badCommand 0 0x15).wf = true := by
  decide
/-- No word spells a command: the table gives no bits. -/
theorem test_decodeTableWord : decodeTableWord 8 0x10 = none := rfl

/-! ### Host buses and expiries -/

/-- R1, R2, R148: a reset with ADMSEL 1 makes H1 the administrative port. -/
theorem test_deviceReset : after (exec (.deviceReset 3 1) writing) (fun t =>
    t.ports[0].ctx = .idle ∧ t.rights[1].rights = ⟨true, true, true, true⟩ ∧ t.rights[3].rights = ⟨false, true, false, false⟩ ∧
      t.ownAddr = 0x2F) = true := by decide
/-- R3, R15. -/
theorem test_start : after (exec (.start 0) State.reset) (fun t => t.ports[0].addrExpected) = true ∧
    after (exec (.repeatedStart 0) writing) (fun t => t.ports[0].ctx = .relayWrite wr ∧ t.ports[0].addrExpected) = true := by
  decide
/-- Sequence 1, t = 0: an address on an IDLE segment is granted at once. -/
theorem test_addressByte : after (exec (.addressByte 0 0x50 .read) (expecting 0 routed)) (fun t =>
    t.ports[0].ctx = .addressing rd ∧ t.ports[0].clockHeld ∧ t.segs[6].state = .active 0 ∧
      t.engines[6].state = .starting ∧ t.segs[6].waits[0] = .running 25000 0) = true := by decide
/-- Sequence 2, t = 5: an entry leased to another port is refused, the refusal recorded. -/
theorem test_addressByte_leased : after (exec (.addressByte 1 0x58 .read) (expecting 1 awaited)) (fun t =>
    t.ports[1].lastRefusal = some { reason := .leasedElsewhere, vaddr := 0x58, dir := .read, entry := some 25 } ∧
      t.ports[1].refusalCount = 1 ∧ t.ports[1].ctx = .idle) = true := by decide
/-- Sequence 2, t = 10.3: a write byte goes to the engine, the clock is held. -/
theorem test_dataByte : after (exec (.dataByte 0 0x20) writing) (fun t =>
    t.ports[0].clockHeld ∧ t.engines[6].activity = .clocking ∧ t.engines[6].bus = [.write 0x20]) = true := by decide
/-- R6: the 25th byte of a frame marks the buffer overlong. -/
theorem test_dataByte_overlong : after (exec (.dataByte 0 0x20)
    ((h0 (fun h => { h with ctx := .commandIn })).onBuffer 0 (fun _ => { bytes := List.replicate 24 0, overlong := false })))
    (fun t => t.buffers[0].overlong ∧ t.buffers[0].bytes.length = 24 ∧ t.ports[0].upstream = []) = true := by decide
/-- Sequence 2, t = 10.7 and 10.8. -/
theorem test_hostAnswers : after (exec (.hostAcknowledge 0) reading) (fun t =>
      t.engines[6].bus = [.acknowledge, .fetch] ∧ t.ports[0].byteInHand) = true ∧
    after (exec (.hostNotAcknowledge 0) reading) (fun t => t.ports[0].readClosed ∧ t.engines[6].bus = [.notAcknowledge]) =
      true := by decide
/-- Sequence 2, t = 11: the segment is IDLE, the engine drives the stop. -/
theorem test_stop : after (exec (.stop 0) { writing with pending := [.idnt 3] }) (fun t =>
    t.ports[0].ctx = .idle ∧ t.segs[6].state = .idle ∧ t.engines[6].state = .stopping ∧ t.engines[6].bus = [.stop]) = true := by
  decide
/-- R7, R143: the frame of an LQRY is taken at the stop. -/
theorem test_stop_takesFrame : after (exec (.stop 1)
    ((leased.onPort 1 (fun h => { h with ctx := .commandIn })).onBuffer 1 (fun _ => { bytes := [0x24, 25], overlong := false })))
    (fun t => t.responses[1].payload = [25, 2, 2, 0, 0, 0, 200, 0, 0xFF, 0xFF, 0xFF, 0, 0] ∧ t.buffers[1].bytes = []) =
    true := by decide
/-- R19: an abandoned frame is discarded, the port told with no entry and no segment. -/
theorem test_abandonExpiry : after (exec (.abandonExpiry 0)
    (h0 (fun h => { h with ctx := .commandIn, abandon := .running 100000 99999 })))
    (fun t => t.ports[0].ctx = .idle ∧
      t.notices[0].records = [{ kind := .messageAbandoned, seq := 1, entry := none, seg := none, token := 0 }]) = true := by
  decide
/-- Sequence 1, t = 22: the wait of a queued port expires. -/
theorem test_waitExpiry : after (exec (.waitExpiry 0) (recovering 0 .look)) (fun t =>
    t.segs[6].queue = [] ∧ t.ports[0].lastRefusal.map RefusalInfo.reason = some .waitExpired ∧ ¬ t.ports[0].clockHeld) =
    true := by decide
/-- R123: an expired lease goes to the port that waits for it. -/
theorem test_leaseExpiry : after (exec (.leaseExpiry 25) awaited) (fun t =>
    t.leases[0] = none ∧ t.leases[1].map Lease.token = some 41 ∧ t.notices[0].records.map Notice.kind = [.leaseExpired] ∧
      t.notices[1].records.map Notice.kind = [.leaseGranted]) = true := by decide

/-! ### Segments -/

/-- R77: the start and the target's address. -/
theorem test_lineCheckPassed : after (exec (.lineCheckPassed 6) (starting rd)) (fun t =>
    t.engines[6].state = .address ∧ t.engines[6].busOwned ∧ t.engines[6].bus = [.start, .address 0x50 .read]) = true := by
  decide
/-- Sequence 1, t = 0.1: RELAY_READ, the wait timer stopped, the first byte fetched. -/
theorem test_targetAcknowledgesAddress : after (exec (.targetAcknowledgesAddress 6) (addressed rd)) (fun t =>
    t.ports[0].ctx = .relayRead rd ∧ t.ports[0].clockHeld ∧ t.segs[6].waits[0] = .stopped ∧ t.engines[6].bus = [.fetch]) =
    true := by decide
/-- Sequence 4, t = 25: nothing answers. -/
theorem test_targetNack : after (exec (.targetNack 6) (addressed rd)) (fun t =>
    t.ports[0].lastRefusal.map RefusalInfo.reason = some .targetNack ∧ t.segs[6].state = .idle ∧
      t.engines[6].state = .stopping) = true := by decide
/-- R81: the target's not-acknowledge goes upstream, and the transfer goes on. -/
theorem test_writeByteAnswered : after (exec (.writeByteAnswered 6 false) clocking) (fun t =>
    t.ports[0].upstream = [] ∧ t.ports[0].ctx = .relayWrite wr ∧ ¬ t.ports[0].clockHeld) = true := by decide
/-- Sequence 2, t = 10.5: the byte is supplied, its slot open. -/
theorem test_readByteFetched : after (exec (.readByteFetched 6 0xA5) fetching) (fun t =>
    t.ports[0].upstream = [.supply 0xA5] ∧ t.engines[6].activity = .slotOpen) = true := by decide
/-- Sequence 1, second course: an acknowledged read address is followed by one discarded byte, then a not-acknowledge. -/
theorem test_closingByteFinished :
    after (exec (.closingByteFinished 6 true) (freeS6 (fun e =>
      { e with state := .address, activity := .clocking, closing := true, busOwned := true, target := some (0x50, .read) })))
      (fun t => t.engines[6].state = .reading ∧ t.engines[6].discarding ∧ t.engines[6].bus = [.fetch]) = true ∧
    after (exec (.closingByteFinished 6 true) (freeS6 (fun e =>
      { e with state := .reading, activity := .clocking, discarding := true, busOwned := true })))
      (fun t => t.engines[6].state = .stopping ∧ t.engines[6].bus = [.notAcknowledge, .stop]) = true := by decide
/-- Sequence 5: the stop complete, the engine makes the line check for its new port. -/
theorem test_stopComplete : after (exec (.stopComplete 6) (addressing wr (fun e =>
    { e with state := .stopping, busOwned := true, target := some (0x51, .read) }))) (fun t =>
    t.engines[6].state = .starting ∧ t.engines[6].target = some (0x50, .write) ∧ ¬ t.engines[6].busOwned) = true := by decide
/-- R77, R94, R97: at the line check each line held low is timed by itself; a release stops the timing of that line alone. -/
theorem test_lineHeld : after (exec (.lineHeld 6 .data) (starting wr)) (fun t =>
      t.engines[6].hold = { clock := .stopped, data := .running 30000 0 }) = true ∧
    after (exec (.lineReleased 6 .data) ((starting wr).onEngine 6 (fun e =>
      { e with hold := { clock := .running 30000 7, data := .running 30000 9 } }))) (fun t =>
        t.engines[6].hold = { clock := .running 30000 7, data := .stopped }) = true := by decide
/-- R105: a clock found low after a pulse finds that pulse counted, and its completion does not count it again. -/
theorem test_pulseHeld : after (exec (.lineHeld 6 .clock) (recovering 2 .pulse)) (fun t =>
      t.engines[6].pulses = 3 ∧ t.engines[6].hold.clock = .running 30000 0 ∧
        after (exec (.recoveryPulse 6 true) t) (fun u => u.engines[6].pulses = 3 ∧ u.engines[6].recStep = .stop) = true) = true ∧
    after (exec (.lineHeld 6 .data) (recovering 0 .look)) (fun t =>
      t.engines[6].hold = .stopped ∧ t.engines[6].recStep = .pulse) = true := by decide
/-- Sequence 3, t = 30: a break of a read records no refusal; the recovery begins with H0 as broken port. -/
theorem test_holdTimerExpiry : after (exec (.holdTimerExpiry 6)
    (fetching.onEngine 6 (fun e => { e with hold := { clock := .running 30000 29999, data := .stopped } }))) (fun t =>
    t.ports[0].ctx = .broken rd ∧ t.ports[0].lastRefusal = none ∧ t.segs[6].state = .recovering none ∧
      t.engines[6].brokenPort = some 0 ∧ t.segs[6].recoveryCount = 1 ∧
      t.notices[0].records.map Notice.kind = [.messageBroken .holdExpired]) = true := by decide
/-- R105, R107: the ninth pulse that leaves the data line low fails the recovery; the queue reads SEGMENT_FAULT. -/
theorem test_recoveryPulse : after (exec (.recoveryPulse 6 false) (recovering 8 .pulse)) (fun t =>
    t.segs[6].state = .fault ∧ t.ports[0].lastRefusal.map RefusalInfo.reason = some .segmentFault ∧
      t.notices[1].records.map Notice.kind = [.segmentFault] ∧ t.notices[3].records.map Notice.kind = [.segmentFault] ∧
      t.notices[0].records = []) = true := by decide
/-- R105, R106: a success hands the segment to the queue. -/
theorem test_recoverySucceeded : after (exec (.recoverySucceeded 6) (recovering 3 .stop)) (fun t =>
    t.segs[6].state = .active 0 ∧ t.ports[0].ctx = .addressing rd ∧ t.engines[6].state = .starting ∧
      t.notices[3].records.map Notice.kind = [.segmentRecovered]) = true := by decide
/-- S6 shared, its engine in shared mode. -/
def shared (s : State) : State :=
  (s.onSeg 6 (fun a => { a with shared := true })).onEngine 6 (fun e => { e with sharedMode := true })
/-- R96. -/
theorem test_foreignStart : after (exec (.foreignStart 6) (shared routed)) (fun t => t.engines[6].foreignBusy) = true ∧
    after (exec (.foreignStart 6) routed) (fun t => ¬ t.engines[6].foreignBusy) = true := by decide
/-- R97: a start that waited for the foreign stop is driven in the same event. -/
theorem test_foreignStop : after (exec (.foreignStop 6 true)
    ((shared (starting wr)).onEngine 6 (fun e => { e with foreignBusy := true }))) (fun t =>
    ¬ t.engines[6].foreignBusy ∧ t.engines[6].state = .address ∧ t.engines[6].retry = 1) = true := by decide
/-- R96: on a segment made dedicated the flag goes at the next stop, also within a message of the part. -/
theorem test_foreignStop_dedicated : after (exec (.foreignStop 6 false)
    (writing.onEngine 6 (fun e => { e with foreignBusy := true }))) (fun t =>
    ¬ t.engines[6].foreignBusy ∧ t.engines[6].state = .writing) = true := by decide
/-- R99: the third loss of an address phase is refused with ARBITRATION_LOST. -/
theorem test_arbitrationLoss :
    after (exec (.arbitrationLoss 6) ((shared (addressed wr)).onEngine 6 (fun e => { e with retry := 3 }))) (fun t =>
      t.ports[0].lastRefusal.map RefusalInfo.reason = some .arbitrationLost ∧ t.segs[6].state = .idle ∧
        t.segs[6].lossCount = 1 ∧ t.engines[6].foreignBusy) = true ∧
    after (exec (.arbitrationLoss 6) ((shared (addressed wr)).onEngine 6 (fun e => { e with retry := 2 }))) (fun t =>
      t.engines[6].state = .starting ∧ t.ports[0].ctx = .addressing wr) = true := by decide

/-! ### Commands -/

/-- Sequence 4, t = 30: an installation takes the next generation. -/
theorem test_insr : after (exec (.insr 3 30 0x64 2 3 0x34 0b0011 0 1 500)
    (State.reset.onEntry 30 (fun _ => { gen := 3, route := none }))) (fun t =>
    t.responses[3].bytes = [0x00, 0x10, 0x02, 0x1E, 0x04] ∧ t.directory[30].route = some
      { vbase := 0x64, span := .two, seg := 3, tbase := 0x34, vis := 0b0011, wp := 0, mode := .exclusive, maxLease := 500 }) =
    true := by decide
/-- R29, R30: the own address, an INSTALLED record, a range another port sees. -/
theorem test_insr_refused :
    after (exec (.insr 3 30 0x2C 1 3 0x34 1 0 0 500) routed) (fun t => t.responses[3].status = .reservedAddress) = true ∧
    after (exec (.insr 3 16 0x10 1 3 0x34 1 0 0 500) routed) (fun t => t.responses[3].status = .occupied) = true ∧
    after (exec (.insr 3 30 0x50 8 3 0x30 4 0 0 500) routed) (fun t =>
      t.responses[3].status = .conflict ∧ t.responses[3].payload = [16]) = true := by decide
/-- Sequence 4, t = 5: both lease records go, each port told. -/
theorem test_delr : after (exec (.delr 3 25) awaited) (fun t =>
    t.responses[3].bytes = [0x00, 0x11, 0x02, 25, 2] ∧ t.leases[0] = none ∧ t.leases[1] = none ∧
      t.notices[0].records = [{ kind := .leaseRevoked .routeRemoved, seq := 1, entry := some 25, seg := some 0, token := 40 }] ∧
      t.notices[1].records = [{ kind := .leaseRevoked .routeRemoved, seq := 1, entry := some 25, seg := some 0, token := 0 }]) =
    true := by decide
/-- R127, R128: the holder loses visibility, the request behind it is promoted under the new max lease. -/
theorem test_modr : after (exec (.modr 3 25 0b0010 0 1 100) awaited) (fun t =>
    t.leases[0] = none ∧ t.leases[1].map Lease.status = some (.held 41 100000) ∧
      t.notices[0].records.map Notice.kind = [.leaseRevoked .visibilityLost] ∧ t.responses[3].payload = [25, 2]) = true := by
  decide
/-- R35. -/
theorem test_rdrt : after (exec (.rdrt 0 25) leased) (fun t =>
    t.responses[0].payload = [25, 1, 2, 0x58, 1, 0, 0x48, 3, 0, 1, 0, 250]) = true := by decide
/-- R36. -/
theorem test_dflt : after (exec (.dflt 3 0 7) routed) (fun t =>
    t.defaults[0] = some 7 ∧ t.responses[3].payload = [0, 0xFF, 7]) = true := by decide
/-- Sequence 2, t = 0 and t = 3. -/
theorem test_lacq : after (exec (.lacq 0 0x19 0x00C8 0) exclusive) (fun t =>
      t.responses[0].bytes = [0x00, 0x20, 0x04, 0x19, 0x28, 0x00, 0xC8] ∧ t.leases = leased.leases ∧ t.tokenCounter = 41) = true ∧
    after (exec (.lacq 1 0x19 0x012C 1) leased) (fun t =>
      t.responses[1].payload = [0x19, 0x01, 0x00] ∧ t.leases = awaited.leases ∧ t.tokenCounter = 41) = true := by decide
/-- R119: a renewal is clipped to the max lease; a wrong token reads STALE. -/
theorem test_lren : after (exec (.lren 0 25 40 400) leased) (fun t =>
      t.leases[0].map Lease.status = some (.held 40 250000) ∧ t.responses[0].payload = [25, 40, 0, 250]) = true ∧
    after (exec (.lren 0 25 39 400) leased) (fun t => t.responses[0].status = .stale) = true := by decide
/-- Sequence 2, t = 14: the request is promoted, clipped to 250 ms, with token 41. -/
theorem test_lrel : after (exec (.lrel 0 0x19 0x28) awaited) (fun t =>
    t.responses[0].bytes = [0x00, 0x22, 0x02, 0x19, 0x01] ∧ t.leases[1].map Lease.status = some (.held 41 250000) ∧
      t.tokenCounter = 42 ∧ t.notices[1].alert) = true := by decide
/-- Sequence 2, the two withdrawals: before the release, and after the promotion. -/
theorem test_lrelCancel : after (exec (.lrelCancel 1 0x19) awaited) (fun t =>
      t.leases = leased.leases ∧ t.notices = awaited.notices) = true ∧
    after (exec (.lrelCancel 0 0x19) leased) (fun t => t.responses[0].status = .stale) = true := by decide
/-- R125. -/
theorem test_lrev : after (exec (.lrev 3 25) awaited) (fun t =>
    t.responses[3].payload = [25, 0, 1] ∧ t.leases[1] = none ∧
      t.notices[1].records.map Notice.kind = [.leaseRevoked .cancelled] ∧ t.notices[1].records.map Notice.token = [0]) = true := by
  decide
/-- R130: the token is the holder's to read, and no other port's. -/
theorem test_lqry : after (exec (.lqry 0 25) awaited) (fun t =>
      t.responses[0].payload = [25, 2, 2, 0, 40, 0, 200, 1, 1, 0xFF, 0xFF, 2, 0]) = true ∧
    after (exec (.lqry 1 25) awaited) (fun t =>
      t.responses[1].payload = [25, 2, 2, 0, 0, 0, 200, 1, 1, 0xFF, 0xFF, 1, 1]) = true := by decide
/-- Sequence 1, t = 10: a new configuration leaves a running wait timer its limit. -/
theorem test_scfg : after (exec (.scfg 3 6 1 0 40 30) (starting rd)) (fun t =>
    t.responses[3].payload = [6, 2, 0] ∧ t.segs[6].waitLimit = 40 ∧ t.segs[6].waits[0] = .running 25000 0) = true ∧
    after (exec (.scfg 3 6 0 0 40 30) (starting rd)) (fun t =>
      t.responses[3].status = .accepted ∧ t.segs[6].disablePending) = true := by decide
/-- Sequence 1, between t = 23 and t = 24. -/
theorem test_ssta : after (exec (.ssta 3 6) (routed.onSeg 6 (fun a =>
    { a with state := .active 0, queue := [2, 1], waitLimit := 40 }))) (fun t =>
    t.responses[3].payload =
      [0x06, 0x02, 0x00, 0xFF, 0x02, 0x02, 0x01, 0xFF, 0x01, 0x28, 0x1E, 0x00, 0x00, 0x00, 0x00]) = true := by decide
/-- Sequence 3, t = 500: a recovery forced on a segment in FAULT has no broken port. -/
theorem test_srcv : after (exec (.srcv 3 2) (State.reset.onSeg 2 (fun a => { a with state := .fault, recoveryCount := 5 })))
    (fun t => t.responses[3].bytes = [0x02, 0x32, 0x02, 0x02, 0x03] ∧ t.segs[2].recoveryCount = 6 ∧
      t.engines[2].brokenPort = none ∧ t.engines[2].state = .recovering) = true := by decide
/-- Sequence 2, t = 20. -/
theorem test_nfet : after (exec (.nfet 1) (State.reset.onNotices 1 (fun _ =>
    { records := [{ kind := .leaseGranted, seq := 8, entry := some 25, seg := some 0, token := 41 }], seq := 8, lost := 0
      alert := true }))) (fun t =>
    t.responses[1].payload = [0x01, 0x08, 0x19, 0x00, 0x29, 0x00, 0x00, 0x00] ∧ ¬ t.notices[1].alert ∧ t.notices[1].seq = 8) =
    true := by decide
/-- R155, R161: a port that writes through entry 16. -/
theorem test_psta : after (exec (.psta 3 0) writing) (fun t =>
    t.responses[3].payload = [0, 3, 6, 2, 4, 0, 0xFF, 0, 0, 0, 0xFF, 0xFF, 0xFF, 0]) = true := by decide
/-- R150: the last ADMIN right stays; otherwise the row is set. -/
theorem test_rght : after (exec (.rght 3 3 7 4) State.reset) (fun t => t.responses[3].status = .lastAdmin) = true ∧
    after (exec (.rght 3 0 15 16) State.reset) (fun t =>
      t.rights[0] = { rights := ⟨true, true, true, true⟩, quota := 16 } ∧ t.responses[3].payload = [0, 15, 16, 0]) = true := by
  decide
/-- Sequence 5: a port reset of a port that writes, with a byte in hand. -/
theorem test_prst : after (exec (.prst 3 0) clocking) (fun t =>
    t.ports[0].ctx = .idle ∧ t.segs[6].state = .idle ∧ t.engines[6].closing ∧ t.responses[3].bytes = [0x00, 0x52, 0x02, 0, 0] ∧
      t.responses[0].bytes = [0xFE, 0x00, 0x00] ∧
      t.notices[0].records = [{ kind := .portReset 3, seq := 1, entry := none, seg := none, token := 0 }]) = true := by decide
/-- R156. -/
theorem test_idnt : after (exec (.idnt 0) State.reset) (fun t =>
    t.responses[0].payload = [0xD7, 0x48, 0x01, 4, 8, 48, 16, 0x2C, 3]) = true := by decide
/-- R144 step 1. -/
theorem test_badCommand : after (exec (.badCommand 0 0x15) State.reset) (fun t =>
    t.responses[0].bytes = [0x10, 0x15, 0x00]) = true := by decide

/-! ### States that meet the hypotheses of the statements: the laws -/

/-- H0 writes on S6 and H1 waits for it. -/
def busy : State :=
  (writing.onPort 1 (fun h => { h with ctx := .waiting wr, clockHeld := true })).onSeg 6 (fun a =>
    { a with queue := [1], waits := a.waits.set 1 (.running 25000 0) })

/-- The step of a state whose front command is IDNT of H3. -/
def queued (s : State) : State := { s with pending := [.idnt 3] }

/-- H0's notice queue full, with 255 notices lost. -/
def fullNotices : State :=
  queued (State.reset.onNotices 0 (fun _ =>
    { records := (List.range 8).map (fun i =>
        { kind := .messageAbandoned, seq := BitVec.ofNat 8 (i + 254), entry := none, seg := none, token := 0 })
      seq := 5, lost := 255, alert := true }))

theorem witness_NoticesLawKept : NoticesLaw fullNotices ∧ ∃ t, step fullNotices = .next t := by
  refine ⟨?_, _, rfl⟩
  unfold NoticesLaw NoticeQueue.Lawful
  decide

/-- H0's frame buffer full and overlong, H1's response as long as any. -/
def fullBuffer : State :=
  queued (((h0 (fun h => { h with ctx := .commandIn, abandon := .running 100000 0 })).onBuffer 0 (fun _ =>
    { bytes := List.replicate 24 0, overlong := true })).onResponse 1 (fun _ =>
    { status := .ok, echo := 0, payload := List.replicate 20 0 }))

theorem witness_CommandTablesKept :
    RightsLaw fullBuffer ∧ BufferLaw fullBuffer ∧ ResponseLaw fullBuffer ∧ ∃ t, step fullBuffer = .next t := by
  refine ⟨?_, ?_, ?_, _, rfl⟩
  · unfold RightsLaw; decide
  · unfold BufferLaw; decide
  · unfold ResponseLaw; decide

theorem directoryLaw_one {s : State} (e : EntryIx) (r : Route) (h : ∀ i, s.route i = if i = e then some r else none)
    (hr : r.Lawful s.ownAddr) : DirectoryLaw s := by
  constructor
  · intro i o ho
    rw [h] at ho
    split at ho
    · cases ho; exact hr
    · cases ho
  · intro i j o k ho hk hij
    rw [h] at ho hk
    split at ho
    · split at hk
      · subst_vars; exact absurd rfl hij
      · cases hk
    · cases ho

theorem witness_DirectoryLawKept : DirectoryLaw (queued routed) ∧ ∃ t, step (queued routed) = .next t := by
  refine ⟨directoryLaw_one 16 route16 (by decide) ?_, _, rfl⟩
  unfold Route.Lawful
  decide

/-- The two records of `awaited`. -/
def held0 : Lease := { port := 0, entry := 25, gen := 2, requested := 200, status := .held 40 200000 }
def pend1 : Lease := { port := 1, entry := 25, gen := 2, requested := 300, status := .pending 1 }

theorem awaited_leases {i : Slot} {l : Lease} (h : awaited.leases[i] = some l) :
    i = 0 ∧ l = held0 ∨ i = 1 ∧ l = pend1 := by
  have h₁ : ∀ i : Slot, awaited.leases[i] = if i = 0 then some held0 else if i = 1 then some pend1 else none := by decide
  rw [h₁] at h
  split at h
  · cases h; exact .inl ⟨‹_›, rfl⟩
  · split at h
    · cases h; exact .inr ⟨‹_›, rfl⟩
    · cases h

theorem awaited_leaseLaw : LeaseLaw awaited := by
  refine ⟨?_, ?_, ?_⟩
  · intro i j l k hi hj _ hor
    rcases awaited_leases hi with ⟨rfl, rfl⟩ | ⟨rfl, rfl⟩ <;> rcases awaited_leases hj with ⟨rfl, rfl⟩ | ⟨rfl, rfl⟩ <;>
      first
      | rfl
      | exact absurd hor (by decide)
  · intro i l hi hp
    rcases awaited_leases hi with ⟨rfl, rfl⟩ | ⟨rfl, rfl⟩
    · exact absurd hp (by decide)
    · exact ⟨by decide, by decide, ⟨0, held0, by decide, rfl, rfl⟩, fun h => absurd rfl h⟩
  · intro i l hi
    rcases awaited_leases hi with ⟨rfl, rfl⟩ | ⟨rfl, rfl⟩
    · exact ⟨rfl, route25, rfl, rfl⟩
    · exact ⟨rfl, route25, rfl, rfl⟩

theorem witness_LeaseLawKept : LeaseLaw (queued awaited) ∧ ∃ t, step (queued awaited) = .next t :=
  ⟨awaited_leaseLaw, _, rfl⟩

theorem witness_TokenLawKept : TokenLaw (queued awaited) ∧ ∃ t, step (queued awaited) = .next t := by
  refine ⟨⟨by decide, ?_, ?_⟩, _, rfl⟩
  · intro i l hi hh
    rcases awaited_leases hi with ⟨rfl, rfl⟩ | ⟨rfl, rfl⟩
    · decide
    · exact absurd hh (by decide)
  · intro i j l k hi hj h₁ h₂ _
    rcases awaited_leases hi with ⟨rfl, rfl⟩ | ⟨rfl, rfl⟩
    · rcases awaited_leases hj with ⟨rfl, rfl⟩ | ⟨rfl, rfl⟩
      · rfl
      · exact absurd h₂ (by decide)
    · exact absurd h₁ (by decide)

theorem witness_RemainingLawKept :
    DirectoryLaw (queued awaited) ∧ RemainingLaw (queued awaited) ∧ ∃ t, step (queued awaited) = .next t := by
  refine ⟨directoryLaw_one 25 route25 (by decide) (by unfold Route.Lawful; decide), ?_, _, rfl⟩
  intro i l hi
  rcases awaited_leases hi with ⟨rfl, rfl⟩ | ⟨rfl, rfl⟩ <;> decide

theorem relayLaw_onS6 {s : State} (hp : PortLaw s) (hs : SegmentLaw s) (h6 : EngLawful s 6)
    (h : ∀ m : Seg, m = 6 ∨ s.engines[m] = Engine.reset ∧ s.segs[m] = Arbiter.reset) : RelayLaw s := by
  refine ⟨hp, hs, fun m => ?_⟩
  rcases h m with rfl | ⟨h₁, h₂⟩
  · exact h6
  · unfold EngLawful EngineRow Engine.HoldLawful
    rw [h₁, h₂]
    exact ⟨⟨rfl, rfl, rfl, rfl, .inl rfl⟩, by decide⟩

theorem busy_relayLaw : RelayLaw busy := by
  refine relayLaw_onS6 (by unfold PortLaw HostPort.Lawful; decide) (by unfold SegmentLaw SegLawful; decide) ⟨?_, ?_⟩ (by decide)
  · show EngineRow busy 6
    exact ⟨rfl, by decide, 0, wr, rfl, rfl, rfl, by decide⟩
  · unfold Engine.HoldLawful; decide

theorem witness_PortLawKept : PortLaw (queued busy) ∧ ∃ t, step (queued busy) = .next t := ⟨busy_relayLaw.1, _, rfl⟩
theorem witness_RelayLawKept : RelayLaw (queued busy) ∧ ∃ t, step (queued busy) = .next t := ⟨busy_relayLaw, _, rfl⟩
theorem witness_RelayLawExcludesFaults : RelayLaw (queued busy) := busy_relayLaw

/-! ### States that meet the hypotheses of the statements: commands -/

theorem witness_StepTakesFrontCommand : State.reset.pending = [] ∧ State.reset.dueExpiries = [] ∧
    ((h0 (fun h => { h with abandon := .running 100000 99999 })).pending = [] ∧
      (h0 (fun h => { h with abandon := .running 100000 99999 })).dueExpiries = [.abandonExpiry 0] ∧
      (h0 (fun h => { h with abandon := .running 100000 99998 })).dueExpiries = []) := by
  decide

theorem witness_FramesDecodeBack :
    buildCommand .lacq [0x19, 0x01, 0x2C, 0x01] = some (.lacq 0x19 0x012C 1) ∧
      buildCommand .lacq [0x19, 0x01, 0x2C] = none ∧ opOfCode 0x15 = none := by
  decide

/-- Port 0 in COMMAND_IN with a buffer. -/
def framed (f : FrameBuffer) : State :=
  (h0 (fun h => { h with ctx := .commandIn, abandon := .running 100000 0 })).onBuffer 0 (fun _ => f)

theorem witness_TakenFrameRunsItsCommand :
    let s := framed { bytes := (Command.lacq 16 300 1).frame, overlong := false }
    s.ports[(0 : Port)].ctx = .commandIn ∧ s.ports[(0 : Port)].clockHeld = false ∧
      s.buffers[(0 : Port)] = { bytes := (Command.lacq 16 300 1).frame, overlong := false } := by
  decide

theorem witness_MalformedFramesAnswered :
    (∀ f : FrameBuffer, (framed f).ports[(0 : Port)].ctx = .commandIn ∧ (framed f).ports[(0 : Port)].clockHeld = false) ∧
      (framed { bytes := [], overlong := false }).buffers[(0 : Port)].bytes = [] ∧
      ((framed { bytes := [0x15], overlong := false }).buffers[(0 : Port)].bytes = 0x15 :: [] ∧ opOfCode 0x15 = none) ∧
      ((framed { bytes := [0x24], overlong := false }).buffers[(0 : Port)].bytes = opCode .lqry :: [] ∧
        ([] : List Byte).length + 1 ≠ frameLength .lqry) ∧
      ((framed { bytes := [0x24, 0, 0], overlong := false }).buffers[(0 : Port)].bytes = opCode .lqry :: [0, 0] ∧
        [0, 0].length + 1 ≠ frameLength .lqry) ∧
      (framed { bytes := opCode .insr :: List.replicate 23 0, overlong := true }).buffers[(0 : Port)].overlong = true ∧
      State.reset.ports[(0 : Port)].ctx = .idle := by
  refine ⟨fun f => ⟨rfl, rfl⟩, ?_⟩
  decide

theorem witness_RightsStepDecides : State.reset.ports[(0 : Port)].ctx = .idle ∧
    ¬ Permitted State.reset.rights[(0 : Port)].rights 0 (.delr 16) ∧
    Permitted State.reset.rights[(0 : Port)].rights 0 (.lqry 16) ∧
    Permitted State.reset.rights[(0 : Port)].rights 0 (.prst 0) ∧
    ¬ Permitted State.reset.rights[(0 : Port)].rights 0 (.prst 1) ∧
    Permitted State.reset.rights[(3 : Port)].rights 3 (.prst 1) ∧
    (State.reset.ports[(3 : Port)].ctx = .idle ∧ State.reset.rights[(3 : Port)].rights.admin = true ∧ 3 < (4#8).toNat) := by
  refine ⟨rfl, ?_, trivial, ?_, ?_, ?_, by decide⟩ <;> unfold Permitted <;> decide

theorem witness_ArgumentsStepDecides : MayCommand State.reset 3 (.scfg 7 1 1 1 5) ∧
    ¬ ArgumentsRefused (.scfg 7 1 1 1 5) ∧ ¬ ArgumentsRefused (.scfg 7 1 1 255 100) ∧ ArgumentsRefused (.scfg 7 1 1 1 4) ∧
    ArgumentsRefused (.scfg 7 1 1 1 101) ∧ ArgumentsRefused (.scfg 8 1 1 1 5) ∧
    ¬ ArgumentsRefused (.insr 47 0x70 8 7 0x70 15 15 1 0xFFFF) ∧ ArgumentsRefused (.insr 48 0x70 8 7 0x70 15 15 1 0xFFFF) ∧
    ArgumentsRefused (.insr 47 0x74 8 7 0x70 15 15 1 0xFFFF) ∧ ArgumentsRefused (.insr 47 0x70 8 7 0x70 7 15 1 0xFFFF) ∧
    ArgumentsRefused (.insr 47 0x70 8 7 0x70 16 0 1 0xFFFF) ∧ ¬ ArgumentsRefused (.rght 3 15 16) ∧
    ArgumentsRefused (.rght 3 15 17) := by
  refine ⟨⟨rfl, ?_⟩, ?_⟩
  · unfold Permitted; decide
  · simp [ArgumentsRefused, MasksRefused]

/-- A route of one address, visible to H3. -/
def routeAt (v t : Addr) : Route :=
  { vbase := v, span := .one, seg := 7, tbase := t, vis := 0b1000, wp := 0b1000, mode := .opened, maxLease := 65535 }

theorem witness_InsrInstallsOrRefuses :
    (routed.ports[(3 : Port)].ctx = .idle ∧ routed.rights[(3 : Port)].rights.route = true) ∧
    (∀ v t : Addr, aligned (routeAt v t).vbase (routeAt v t).span = true ∧ aligned (routeAt v t).tbase (routeAt v t).span = true ∧
      masksOk (routeAt v t).vis (routeAt v t).wp = true ∧ 1 ≤ (routeAt v t).maxLease ∧ (routeAt v t).maxLease ≤ 65535) ∧
    (routed.directory[(16 : EntryIx)].route).isSome = true ∧
    routed.directory[(47 : EntryIx)].route = none ∧
    (0x77#7).toNat + Span.one.size ≤ 0x78 ∧ ¬ (0x78#7).toNat + Span.one.size ≤ 0x78 ∧ 0x08 ≤ (0x08#7).toNat ∧
    0x77#7 ≠ routed.ownAddr ∧ routed.insrConflict 47 (routeAt 0x77 0x08) = none ∧
    routed.insrConflict 47 { route16 with seg := 7 } = some 16 ∧
    routed.insrConflict 47 { route16 with vis := 0b1000 } = some 16 := by
  refine ⟨⟨rfl, rfl⟩, fun v t => ⟨?_, ?_, ?_, ?_, ?_⟩, ?_⟩
  · show aligned v .one = true; revert v; decide
  · show aligned t .one = true; revert t; decide
  · show masksOk 0b1000 0b1000 = true; decide
  · show 1 ≤ 65535; decide
  · show 65535 ≤ 65535; decide
  · decide

theorem witness_DelrRemovesEntry : 47 < (48#8).toNat ∧
    (awaited.ports[(3 : Port)].ctx = .idle ∧ awaited.rights[(3 : Port)].rights.route = true) ∧
    awaited.directory[(47 : EntryIx)].route = none ∧ awaited.directory[(25 : EntryIx)].route = some route25 ∧
    LeaseLaw awaited :=
  ⟨by decide, ⟨rfl, rfl⟩, rfl, rfl, awaited_leaseLaw⟩

theorem witness_ModrChangesAccess :
    (awaited.ports[(3 : Port)].ctx = .idle ∧ awaited.rights[(3 : Port)].rights.route = true) ∧
    masksOk 0b0010 0 = true ∧ awaited.directory[(47 : EntryIx)].route = none ∧
    awaited.directory[(25 : EntryIx)].route = some route25 ∧
    awaited.modrConflict 25 { route25 with vis := 0b0010 } = none ∧ LeaseLaw awaited ∧
    (awaited.onEntry 3 (fun _ => { gen := 1, route := some { route25 with vis := 0b0100 } })).modrConflict 25
      { route25 with vis := 0b0110 } = some 3 ∧
    (awaited.leases[(0 : Slot)] = some held0 ∧ hasPort 0b0010 held0.port = false) ∧
    (awaited.leases[(1 : Slot)] = some pend1 ∧ hasPort 0b0010 pend1.port = true) ∧
    -- masks that the holder keeps too
    masksOk 0b0011 0 = true ∧ hasPort 0b0011 held0.port = true ∧ hasPort 0b0011 pend1.port = true :=
  ⟨⟨rfl, rfl⟩, by decide, rfl, rfl, by decide, awaited_leaseLaw, by decide, ⟨rfl, by decide⟩, ⟨rfl, by decide⟩, by decide⟩

theorem witness_RdrtReportsEntry : routed.ports[(0 : Port)].ctx = .idle ∧
    routed.directory[(16 : EntryIx)].route = some route16 ∧ routed.directory[(47 : EntryIx)].route = none ∧
    47 < (48#8).toNat := by
  decide

theorem witness_DfltSetsDefault : routed.ports[(3 : Port)].ctx = .idle ∧ routed.rights[(3 : Port)].rights.route = true ∧
    3 < (4#8).toNat ∧ 7 < (8#8).toNat ∧ 8#8 ≠ 0xFF#8 ∧ 7 < (0xFE#8).toNat ∧ 0xFE#8 ≠ 0xFF#8 := by
  decide

theorem witness_LacqRefusesOrQueues :
    (∀ p : Port, awaited.ports[p].ctx = .idle ∧ awaited.rights[p].rights.lease = true) ∧ 1#16 ≠ 0#16 ∧
    -- not visible to H2
    hasPort route25.vis 2 = false ∧
    -- a record of its own, HELD and PENDING
    awaited.recordOf 0 25 = some (0, held0) ∧ awaited.recordOf 1 25 = some (1, pend1) ∧
    -- at its quota, and one below it
    ((allRights leased).recordOf 1 25 = none ∧ (allRights leased).leaseCount 1 < (allRights leased).rights[(1 : Port)].quota) ∧
    ({ leased with rights := Vector.replicate 4 { rights := ⟨true, true, true, true⟩, quota := 0 } }).rights[(1 : Port)].quota ≤
      leased.leaseCount 1 ∧
    -- no slot left
    (fullTable.recordOf 1 25 = none ∧ fullTable.leaseCount 1 < fullTable.rights[(1 : Port)].quota ∧
      ∀ i : Slot, fullTable.leases[i] ≠ none) ∧
    -- behind a holder
    leased.heldOn 25 = some (0, held0) ∧ leased.leases[(1 : Slot)] = none ∧
    (∀ j : Slot, j < 1 → leased.leases[j] ≠ none) := by
  decide

theorem witness_LacqGrantsLease :
    exclusive.ports[(0 : Port)].ctx = .idle ∧ exclusive.rights[(0 : Port)].rights.lease = true ∧ 0xFFFF#16 ≠ 0#16 ∧
    exclusive.directory[(25 : EntryIx)].route = some route25 ∧ hasPort route25.vis 0 = true ∧
    exclusive.recordOf 0 25 = none ∧ exclusive.leaseCount 0 < exclusive.rights[(0 : Port)].quota ∧
    exclusive.leases[(0 : Slot)] = none ∧ (∀ j : Slot, j < 0 → exclusive.leases[j] ≠ none) ∧ exclusive.heldOn 25 = none ∧
    exclusive.tokenCounter ≠ 0#8 := by
  decide

/-- H0, H1 and H3 on `awaited`: a HELD record, a PENDING one, none. -/
theorem witness_LrenRenewsLease :
    (∀ p : Port, awaited.ports[p].ctx = .idle ∧ awaited.rights[p].rights.lease = true) ∧ 1#16 ≠ 0#16 ∧ 47 < (48#8).toNat ∧
    awaited.recordOf 3 25 = none ∧ awaited.recordOf 1 25 = some (1, pend1) ∧ pend1.status = .pending 1 ∧
    awaited.recordOf 0 25 = some (0, held0) ∧ held0.status = .held 40 200000 ∧
    awaited.directory[(25 : EntryIx)].route = some route25 := by
  decide

theorem witness_LrelReleasesLease :
    (∀ p : Port, awaited.ports[p].ctx = .idle ∧ awaited.rights[p].rights.lease = true) ∧ 40#8 ≠ 0#8 ∧ 41#8 ≠ 40#8 ∧
    awaited.recordOf 3 25 = none ∧ awaited.recordOf 1 25 = some (1, pend1) ∧ pend1.status = .pending 1 ∧
    awaited.recordOf 0 25 = some (0, held0) ∧ held0.status = .held 40 200000 ∧
    awaited.pendingAt 25 1 = some (1, pend1) := by
  decide

theorem witness_LrelCancelWithdraws :
    (∀ p : Port, awaited.ports[p].ctx = .idle ∧ awaited.rights[p].rights.lease = true) ∧
    awaited.recordOf 3 25 = none ∧ awaited.recordOf 1 25 = some (1, pend1) ∧ pend1.status = .pending 1 ∧
    awaited.recordOf 0 25 = some (0, held0) ∧ held0.status = .held 40 200000 := by
  decide

theorem witness_LrevRevokesLeases :
    (awaited.ports[(0 : Port)].ctx = .idle ∧ awaited.rights[(0 : Port)].rights.admin = false) ∧ 47 < (48#8).toNat ∧
    (awaited.ports[(3 : Port)].ctx = .idle ∧ awaited.rights[(3 : Port)].rights.admin = true) ∧
    awaited.directory[(47 : EntryIx)].route = none ∧
    (exclusive.directory[(25 : EntryIx)].route = some route25 ∧ exclusive.heldOn 25 = none) ∧
    awaited.directory[(25 : EntryIx)].route = some route25 ∧ awaited.heldOn 25 = some (0, held0) ∧ LeaseLaw awaited :=
  ⟨⟨rfl, rfl⟩, by decide, ⟨rfl, rfl⟩, rfl, ⟨rfl, by decide⟩, rfl, by decide, awaited_leaseLaw⟩

theorem witness_LqryReportsLease :
    (∀ p : Port, awaited.ports[p].ctx = .idle) ∧ 47 < (48#8).toNat ∧ awaited.directory[(47 : EntryIx)].route = none ∧
    (awaited.directory[(25 : EntryIx)].route).isSome = true ∧ exclusive.heldOn 25 = none ∧
    awaited.heldOn 25 = some (0, held0) ∧ awaited.recordOf 3 25 = none ∧ awaited.recordOf 1 25 = some (1, pend1) ∧
    awaited.recordOf 0 25 = some (0, held0) := by
  decide

theorem witness_PromotionServesOldestRequest :
    leased.pendingAt 25 1 = none ∧ awaited.pendingAt 25 1 = some (1, pend1) ∧
    awaited.directory[(25 : EntryIx)].route = some route25 ∧ awaited.tokenCounter ≠ 0#8 := by
  decide

theorem witness_LeaseExpiryFreesAndPromotes :
    awaited.heldOn 25 = some (0, held0) ∧ awaited.directory[(25 : EntryIx)].route = some route25 := by
  decide

theorem witness_ScfgConfiguresSegment :
    (routed.ports[(3 : Port)].ctx = .idle ∧ routed.rights[(3 : Port)].rights.segment = true) ∧ 1#8 ≠ 0#8 ∧
    5 ≤ (5#8).toNat ∧ (100#8).toNat ≤ 100 ∧ routed.segs[(6 : Seg)].state = .idle ∧
    (busy.segs[(6 : Seg)].state = .active 0 ∧ busy.ports[(3 : Port)].ctx = .idle) ∧
    ((recovering 0 .look).segs[(6 : Seg)].state = .recovering none ∧ (recovering 0 .look).ports[(3 : Port)].ctx = .idle) ∧
    (routed.onSeg 6 (fun a => { a with state := .fault })).segs[(6 : Seg)].state = .fault ∧
    (routed.onSeg 6 (fun a => { a with state := .disabled, enable := false })).segs[(6 : Seg)].state = .disabled := by
  decide

theorem witness_SstaReportsSegment :
    routed.ports[(0 : Port)].ctx = .idle ∧ routed.segs[(6 : Seg)].state = .idle ∧ 7 < (8#8).toNat ∧
    (busy.ports[(3 : Port)].ctx = .idle ∧ busy.segs[(6 : Seg)].state = .active 0) ∧
    (recovering 0 .look).segs[(6 : Seg)].state = .recovering none ∧
    (routed.onSeg 6 (fun a => { a with state := .fault })).segs[(6 : Seg)].state = .fault ∧
    (routed.onSeg 6 (fun a => { a with state := .disabled, enable := false })).segs[(6 : Seg)].state = .disabled := by
  decide

theorem witness_SrcvActsBySegmentState :
    (routed.ports[(0 : Port)].ctx = .idle ∧ routed.rights[(0 : Port)].rights.segment = false) ∧ 7 < (8#8).toNat ∧
    (∀ s ∈ [routed, busy, starting rd, reading, recovering 0 .look, routed.onSeg 6 (fun a => { a with state := .fault }),
        routed.onSeg 6 (fun a => { a with state := .disabled, enable := false })],
      s.ports[(3 : Port)].ctx = .idle ∧ s.rights[(3 : Port)].rights.segment = true) ∧
    routed.segs[(6 : Seg)].state = .idle ∧
    ((starting rd).segs[(6 : Seg)].state = .active 0 ∧ (starting rd).ports[(0 : Port)].ctx = .addressing rd) ∧
    (busy.segs[(6 : Seg)].state = .active 0 ∧ busy.ports[(0 : Port)].ctx = .relayWrite wr) ∧
    (reading.segs[(6 : Seg)].state = .active 0 ∧ reading.ports[(0 : Port)].ctx = .relayRead rd) ∧
    (recovering 0 .look).segs[(6 : Seg)].state = .recovering none ∧
    (routed.onSeg 6 (fun a => { a with state := .fault })).segs[(6 : Seg)].state = .fault ∧
    (routed.onSeg 6 (fun a => { a with state := .disabled, enable := false })).segs[(6 : Seg)].state = .disabled := by
  decide

theorem witness_NfetRemovesOldest :
    (fullNotices.ports[(0 : Port)].ctx = .idle ∧
      ∃ n rest, fullNotices.notices[(0 : Port)].records = n :: rest ∧ rest.length = 7) ∧
    fullNotices.notices[(1 : Port)].records = [] ∧ fullNotices.notices[(1 : Port)].Lawful := by
  refine ⟨⟨rfl, _, _, rfl, rfl⟩, rfl, ?_⟩
  unfold NoticeQueue.Lawful
  decide

theorem witness_PstaReportsPort :
    busy.ports[(3 : Port)].ctx = .idle ∧ busy.ports[(0 : Port)].ctx = .relayWrite wr ∧
    busy.ports[(1 : Port)].ctx = .waiting wr ∧ busy.ports[(0 : Port)].lastRefusal = none ∧
    (busy.onPort 2 (HostPort.turnedAway .targetNack rd)).ports[(2 : Port)].lastRefusal =
      some { reason := .targetNack, vaddr := 0x50, dir := .read, entry := some 16 } ∧ 3 < (4#8).toNat := by
  decide

theorem witness_RghtSetsRow :
    (routed.ports[(0 : Port)].ctx = .idle ∧ routed.rights[(0 : Port)].rights.admin = false) ∧
    3 < (4#8).toNat ∧ 15 < (16#8).toNat ∧ 16 < (17#8).toNat ∧
    routed.ports[(3 : Port)].ctx = .idle ∧ routed.rights[(3 : Port)].rights.admin = true ∧
    ((⟨true, true, true, false⟩ : Rights).admin = false ∧
      ∀ k : Port, k ≠ 3 → routed.rights[k].rights.admin = false) ∧
    ¬ ((⟨true, true, true, false⟩ : Rights).admin = false ∧
      ∀ k : Port, k ≠ 0 → routed.rights[k].rights.admin = false) := by
  decide

theorem leaseLaw_empty {s : State} (h : ∀ i : Slot, s.leases[i] = none) : LeaseLaw s := by
  refine ⟨?_, ?_, ?_⟩
  · intro i j l k hi; rw [h] at hi; cases hi
  · intro i l hi; rw [h] at hi; cases hi
  · intro i l hi; rw [h] at hi; cases hi

/-- The hypotheses on the state of a PRST of `q` issued on H3. -/
def PrstMayRun (s : State) : Prop :=
  s.ports[(3 : Port)].ctx = .idle ∧ s.rights[(3 : Port)].rights.admin = true ∧ LeaseLaw s ∧ RelayLaw s ∧ BufferLaw s

/-- H0 in ADDRESSING as the resume port of S6. -/
def resuming : State :=
  (starting rd).onSeg 6 (fun a => { a with state := .recovering (some 0) }) |>.onEngine 6 (fun e =>
    { e with state := .recovering, served := none, target := none, busOwned := true })

/-- A holder with a request behind it; a port that relays and one that waits; a holder at its line check; a resume port. -/
theorem witness_PrstResetsPort :
    (PrstMayRun awaited ∧ awaited.heldOn 25 = some (0, held0) ∧ awaited.pendingAt 25 1 = some (1, pend1) ∧
      awaited.directory[(25 : EntryIx)].route = some route25) ∧
    (PrstMayRun busy ∧ busy.ports[(0 : Port)].ctx = .relayWrite wr ∧ busy.ports[(1 : Port)].ctx = .waiting wr) ∧
    (PrstMayRun (starting rd) ∧ (starting rd).ports[(0 : Port)].ctx = .addressing rd ∧
      (starting rd).segs[(6 : Seg)].state = .active 0) ∧
    (PrstMayRun resuming ∧ resuming.ports[(0 : Port)].ctx = .addressing rd ∧
      resuming.segs[(6 : Seg)].state = .recovering (some 0)) := by
  refine ⟨⟨⟨rfl, rfl, awaited_leaseLaw, ?_, ?_⟩, by decide⟩, ⟨⟨rfl, rfl, leaseLaw_empty (by decide), busy_relayLaw, ?_⟩, rfl, rfl⟩,
    ⟨⟨rfl, rfl, leaseLaw_empty (by decide), ?_, ?_⟩, rfl, rfl⟩, ⟨⟨rfl, rfl, leaseLaw_empty (by decide), ?_, ?_⟩, rfl, rfl⟩⟩
  · refine relayLaw_onS6 (by unfold PortLaw HostPort.Lawful; decide) (by unfold SegmentLaw SegLawful; decide) ⟨?_, ?_⟩ (by decide)
    · exact ⟨rfl, rfl, rfl, rfl, .inl rfl⟩
    · unfold Engine.HoldLawful; decide
  · unfold BufferLaw; decide
  · unfold BufferLaw; decide
  · refine relayLaw_onS6 (by unfold PortLaw HostPort.Lawful; decide) (by unfold SegmentLaw SegLawful; decide) ⟨?_, ?_⟩ (by decide)
    · exact ⟨⟨0, rfl, rfl, rfl⟩, rfl, rfl⟩
    · unfold Engine.HoldLawful; decide
  · unfold BufferLaw; decide
  · refine relayLaw_onS6 (by unfold PortLaw HostPort.Lawful; decide) (by unfold SegmentLaw SegLawful; decide) ⟨?_, ?_⟩ (by decide)
    · exact ⟨rfl, rfl, rfl, rfl, ⟨_, rfl⟩, rfl⟩
    · unfold Engine.HoldLawful; decide
  · unfold BufferLaw; decide

theorem witness_IdntIdentifiesPart : routed.ports[(0 : Port)].ctx = .idle := rfl

/-! ### States that meet the hypotheses of the statements: host buses and expiries -/

theorem witness_ClockHeldPortsTakeNoEvent : clocking.ports[(0 : Port)].clockHeld = true := rfl

/-- H0 broken out of a transfer. -/
def broken (t : Transfer) : State := h0 (fun h => { h with ctx := .broken t, abandon := .running 100000 0 })
/-- H0 in RESPONSE_OUT. -/
def answering (pos : Nat) (closed : Bool) : State :=
  h0 (fun h => { h with ctx := .responseOut pos closed, abandon := .running 100000 0 })

theorem witness_StartConditionsTaken :
    (∀ s ∈ [routed, broken wr, answering 0 false, writing, reading], s.ports[(0 : Port)].clockHeld = false) ∧
    routed.ports[(0 : Port)].ctx = .idle ∧ (broken wr).ports[(0 : Port)].ctx = .broken wr ∧
    (answering 0 false).ports[(0 : Port)].ctx = .responseOut 0 false ∧ writing.ports[(0 : Port)].ctx = .relayWrite wr ∧
    reading.ports[(0 : Port)].ctx = .relayRead rd := by
  decide

theorem witness_StopsTaken :
    (∀ s ∈ [routed, broken wr, answering 0 false, writing, reading], s.ports[(0 : Port)].clockHeld = false) ∧
    routed.ports[(0 : Port)].ctx = .idle ∧ (broken wr).ports[(0 : Port)].ctx = .broken wr ∧
    (answering 0 false).ports[(0 : Port)].ctx = .responseOut 0 false ∧
    (∀ s ∈ [writing, reading], s.segs[(6 : Seg)].queue = [] ∧ s.segs[(6 : Seg)].disablePending = false ∧
      s.engines[(6 : Seg)].isClosing = false ∧ s.engines[(6 : Seg)].activity ≠ .clocking) ∧
    (writing.ports[(0 : Port)].ctx = .relayWrite wr ∧ writing.engines[(6 : Seg)].state = .writing ∧
      writing.engines[(6 : Seg)].activity = .none) ∧
    reading.ports[(0 : Port)].ctx = .relayRead rd ∧ reading.engines[(6 : Seg)].state = .reading := by
  decide

theorem witness_AddressByteClassified :
    (∀ s ∈ [expecting 0 routed, expecting 0 (broken wr)],
      s.ports[(0 : Port)].clockHeld = false ∧ s.ports[(0 : Port)].addrExpected = true) ∧
    (expecting 0 routed).ports[(0 : Port)].ctx = .idle ∧ (expecting 0 (broken wr)).ports[(0 : Port)].ctx = .broken wr ∧
    (0x07#7).toNat ≤ 0x07 ∧ 0x78 ≤ (0x78#7).toNat ∧
    (0x77#7 ≠ (expecting 0 routed).ownAddr ∧ (expecting 0 routed).resolve 0 0x77 = none) ∧
    (0x2C#7 = (expecting 0 routed).ownAddr ∧ 0x07 < (0x2C#7).toNat ∧ (0x2C#7).toNat < 0x78) ∧
    (routed.ports[(0 : Port)].clockHeld = false ∧ routed.ports[(0 : Port)].addrExpected = false) := by
  decide

theorem witness_ResolutionFindsEntry : DirectoryLaw routed ∧
    (routed.directory[(16 : EntryIx)].route = some route16 ∧ hasPort route16.vis 2 = true ∧
      inRange route16.vbase route16.span 0x50 = true) ∧
    ∀ (e : EntryIx) (r : Route), routed.directory[e].route = some r → hasPort r.vis 2 = true →
      inRange r.vbase r.span 0x51 = false := by
  have h : ∀ i, routed.route i = if i = 16 then some route16 else none := by decide
  refine ⟨directoryLaw_one 16 route16 h (by unfold Route.Lawful; decide), by decide, ?_⟩
  intro e r hr _
  have he := h e
  unfold State.route at he
  rw [hr] at he
  split at he
  · cases he; decide
  · cases he

theorem witness_AdmissionDecidesInOrder :
    routed.directory[(16 : EntryIx)].route = some route16 ∧ routed.directory[(47 : EntryIx)].route = none ∧
    (route16.seg = 6 ∧ inRange route16.tbase route16.span 0x50 = true) ∧
    ∀ (e : EntryIx) (r : Route), routed.directory[e].route = some r → r.seg = 6 → inRange r.tbase r.span 0x4F = false := by
  have h : ∀ i, routed.route i = if i = 16 then some route16 else none := by decide
  refine ⟨rfl, rfl, ⟨rfl, by decide⟩, ?_⟩
  intro e r hr _
  have he := h e
  unfold State.route at he
  rw [hr] at he
  split at he
  · cases he; decide
  · cases he

/-- H0 expects an address while H1 and H2 have places at S6 by `f`. -/
def arriving (f : Arbiter → Arbiter) : State := expecting 0 (routed.onSeg 6 f)

theorem witness_RelayAddressOutcomes :
    (∀ s ∈ [arriving id, arriving (fun a => { a with state := .fault }), arriving (fun a => { a with state := .active 1 }),
        arriving (fun a => { a with state := .recovering none, queue := [1, 2] }),
        arriving (fun a => { a with state := .recovering none, queue := [1, 2, 3] })],
      s.ports[(0 : Port)].clockHeld = false ∧ s.ports[(0 : Port)].ctx = .idle ∧ s.ports[(0 : Port)].addrExpected = true ∧
        0x08 ≤ (0x50#7).toNat ∧ (0x50#7).toNat ≤ 0x77 ∧ 0x50#7 ≠ s.ownAddr ∧ s.resolve 0 0x50 = some wr.snap) ∧
    (arriving (fun a => { a with state := .fault })).checkAtArrival 0 .write wr.snap = some .segmentFault ∧
    ((arriving id).checkAtArrival 0 .write wr.snap = none ∧ (arriving id).segs[(6 : Seg)].state = .idle) ∧
    (arriving (fun a => { a with state := .active 1 })).checkAtArrival 0 .write wr.snap = none ∧
    ((arriving (fun a => { a with state := .recovering none, queue := [1, 2] })).checkAtArrival 0 .write wr.snap = none ∧
      (arriving (fun a => { a with state := .recovering none, queue := [1, 2] })).segs[(6 : Seg)].queue.length < 3) ∧
    3 ≤ (arriving (fun a => { a with state := .recovering none, queue := [1, 2, 3] })).segs[(6 : Seg)].queue.length := by
  decide

/-- The relaying states after a repeated start. -/
def restarted : List State :=
  [expecting 0 writing, expecting 0 reading, expecting 0 { writing with defaults := Vector.replicate 4 (some 5) }]

theorem witness_AddressAfterRepeatedStart :
    (∀ s ∈ restarted, s.ports[(0 : Port)].clockHeld = false ∧ s.ports[(0 : Port)].addrExpected = true) ∧
    (expecting 0 writing).ports[(0 : Port)].ctx = .relayWrite wr ∧ (expecting 0 reading).ports[(0 : Port)].ctx = .relayRead rd ∧
    -- on the same segment, accepted and refused
    ((expecting 0 writing).resolve 0 0x50 = some wr.snap ∧ wr.snap.seg = 6 ∧
      (expecting 0 writing).checkAtArrival 0 .read wr.snap = none) ∧
    ((expecting 0 writing).onEntry 16 (fun _ => { gen := 1, route := some { route16 with mode := .exclusive } })).checkAtArrival 0
      .read wr.snap = some .leaseRequired ∧
    -- no relay address, unmatched, on another segment
    ¬ (0x08 ≤ (0x07#7).toNat) ∧ (expecting 0 writing).resolve 0 0x51 = none ∧
    (expecting 0 { writing with defaults := Vector.replicate 4 (some 5) }).resolve 0 0x51 =
      some { entry := none, seg := 5, target := 0x51 } := by
  decide

theorem witness_DataBytesTaken :
    (∀ s ∈ [framed { bytes := List.replicate 23 0, overlong := false }, framed { bytes := List.replicate 24 0, overlong := false },
        writing, broken wr, routed], s.ports[(0 : Port)].clockHeld = false) ∧
    ((framed { bytes := List.replicate 23 0, overlong := false }).ports[(0 : Port)].ctx = .commandIn ∧
      (framed { bytes := List.replicate 23 0, overlong := false }).buffers[(0 : Port)].bytes.length < 24) ∧
    24 ≤ (framed { bytes := List.replicate 24 0, overlong := false }).buffers[(0 : Port)].bytes.length ∧
    (writing.ports[(0 : Port)].ctx = .relayWrite wr ∧ writing.ports[(0 : Port)].addrExpected = false ∧
      writing.engines[(6 : Seg)].served = some 0 ∧ writing.engines[(6 : Seg)].state = .writing ∧
      writing.engines[(6 : Seg)].activity = .none ∧ writing.engines[(6 : Seg)].isClosing = false) ∧
    ((broken wr).ports[(0 : Port)].ctx = .broken wr ∧ wr.dir = .write ∧ (broken wr).ports[(0 : Port)].addrExpected = false) ∧
    routed.ports[(0 : Port)].ctx = .idle := by
  decide

theorem witness_HostAnswersTaken :
    (∀ s ∈ [answering 0 false, answering 23 true, reading, broken rd, routed], s.ports[(0 : Port)].clockHeld = false) ∧
    (answering 0 false).ports[(0 : Port)].ctx = .responseOut 0 false ∧
    (answering 23 true).ports[(0 : Port)].ctx = .responseOut 23 true ∧
    (reading.ports[(0 : Port)].ctx = .relayRead rd ∧ reading.ports[(0 : Port)].addrExpected = false ∧
      reading.ports[(0 : Port)].readClosed = false ∧ reading.engines[(6 : Seg)].served = some 0 ∧
      reading.engines[(6 : Seg)].state = .reading ∧ reading.engines[(6 : Seg)].activity = .slotOpen ∧
      reading.engines[(6 : Seg)].isClosing = false) ∧
    (let s := reading.onPort 0 (fun h => { h with readClosed := true })
     s.ports[(0 : Port)].clockHeld = false ∧ s.ports[(0 : Port)].ctx = .relayRead rd ∧
       s.ports[(0 : Port)].addrExpected = false ∧ s.ports[(0 : Port)].readClosed = true) ∧
    ((broken rd).ports[(0 : Port)].ctx = .broken rd ∧ rd.dir = .read ∧ (broken rd).ports[(0 : Port)].addrExpected = false) ∧
    routed.ports[(0 : Port)].ctx = .idle := by
  decide

theorem witness_AbandonExpiryEndsEngagement :
    (∀ s ∈ [writing, reading, broken wr, framed { bytes := [0x24], overlong := false }, answering 0 false],
      s.ports[(0 : Port)].abandon ≠ .stopped) ∧
    writing.ports[(0 : Port)].ctx = .relayWrite wr ∧ reading.ports[(0 : Port)].ctx = .relayRead rd ∧
    (broken wr).ports[(0 : Port)].ctx = .broken wr ∧
    (framed { bytes := [0x24], overlong := false }).ports[(0 : Port)].ctx = .commandIn ∧
    (answering 0 false).ports[(0 : Port)].ctx = .responseOut 0 false := by
  decide

theorem witness_WaitExpiryRefusesPort :
    ((recovering 0 .look).ports[(0 : Port)].ctx = .waiting rd ∧ (recovering 0 .look).segs[(6 : Seg)].waits[(0 : Port)] ≠ .stopped) ∧
    (resuming.ports[(0 : Port)].ctx = .addressing rd ∧ resuming.segs[(6 : Seg)].waits[(0 : Port)] ≠ .stopped ∧
      resuming.segs[(6 : Seg)].state = .recovering (some 0)) ∧
    ((starting rd).ports[(0 : Port)].ctx = .addressing rd ∧ (starting rd).segs[(6 : Seg)].waits[(0 : Port)] ≠ .stopped ∧
      ∀ q, (starting rd).segs[(6 : Seg)].state ≠ .recovering q) ∧
    ((starting rd).onSeg 6 (fun a => { a with waits := Vector.replicate 4 .stopped })).segs[(6 : Seg)].waits[(0 : Port)] =
      .stopped := by
  decide

/-! ### States that meet the hypotheses of the statements: arbiters and engines -/

/-- H1, H2 and H3 wait for S6, H2 on an entry that is gone; H1 may be made to wait on such a one too. -/
def threeWaiting (first : Transfer) : State :=
  ((((busy.onPort 1 (fun h => { h with ctx := .waiting first })).onPort 2 (fun h =>
    { h with ctx := .waiting { wr with snap := { wr.snap with entry := some (30, 1) } }, clockHeld := true })).onPort 3 (fun h =>
    { h with ctx := .waiting { wr with snap := { entry := none, seg := 6, target := 0x51 } }, clockHeld := true })).onSeg 6
    (fun a => { a with queue := [2, 1, 3] }))

theorem witness_HandOverServesQueueInOrder :
    (threeWaiting wr).segs[(6 : Seg)].queue.Nodup ∧
    (∀ q ∈ (threeWaiting wr).segs[(6 : Seg)].queue, ∃ t, (threeWaiting wr).ports[q].ctx = .waiting t ∧ t.snap.seg = 6) ∧
    (threeWaiting wr).segs[(6 : Seg)].disablePending = false ∧
    ((threeWaiting wr).onSeg 6 (fun a => { a with disablePending := true, enable := false })).segs[(6 : Seg)].disablePending = true ∧
    (threeWaiting wr).checkAtGrant 2 .write { wr.snap with entry := some (30, 1) } = some .routeGone ∧
    (threeWaiting wr).checkAtGrant 1 .write wr.snap = none := by
  refine ⟨by decide, ?_, by decide⟩
  intro q hq
  have h : q = 2 ∨ q = 1 ∨ q = 3 := by revert q; decide
  rcases h with rfl | rfl | rfl <;> exact ⟨_, rfl, rfl⟩

theorem witness_EngineTakesOrdersAndEnds :
    (∀ e ∈ [Engine.reset, (starting rd).engines[(6 : Seg)], writing.engines[(6 : Seg)], reading.engines[(6 : Seg)],
        fetching.engines[(6 : Seg)], clocking.engines[(6 : Seg)], (addressed rd).engines[(6 : Seg)]], e.isClosing = false) ∧
    Engine.reset.state = .quiet ∧
    ((starting rd).engines[(6 : Seg)].state = .starting ∧ (starting rd).engines[(6 : Seg)].busOwned = false) ∧
    { Engine.reset with closing := true }.isClosing = true ∧ { Engine.reset with discarding := true }.isClosing = true ∧
    { Engine.reset with state := .stopping }.isClosing = false ∧
    ({ Engine.reset with state := .starting, busOwned := true }.isClosing = false ∧
      { Engine.reset with state := .starting, busOwned := true }.activity = .none) ∧
    (writing.engines[(6 : Seg)].state = .writing ∧ writing.engines[(6 : Seg)].activity = .none) ∧
    (reading.engines[(6 : Seg)].state = .reading ∧ reading.engines[(6 : Seg)].activity = .slotOpen) ∧
    clocking.engines[(6 : Seg)].activity = .clocking ∧ fetching.engines[(6 : Seg)].activity = .clocking ∧
    (addressed rd).engines[(6 : Seg)].state = .address := by
  decide

theorem witness_AddressPhaseRuns :
    ((starting rd).engines[(6 : Seg)].state = .starting ∧ (starting rd).engines[(6 : Seg)].target = some (0x50, .read) ∧
      (starting rd).engines[(6 : Seg)].sharedMode = false) ∧
    ((shared (starting rd)).engines[(6 : Seg)].sharedMode = true ∧ (shared (starting rd)).engines[(6 : Seg)].foreignBusy = false) ∧
    (let e := ((shared (starting rd)).onEngine 6 (fun e => { e with foreignBusy := true })).engines[(6 : Seg)]
     e.state = .starting ∧ e.busOwned = false ∧ e.sharedMode = true ∧ e.foreignBusy = true) ∧
    (∀ t ∈ [wr, rd], (addressed t).engines[(6 : Seg)].state = .address ∧ (addressed t).engines[(6 : Seg)].activity = .clocking ∧
      (addressed t).engines[(6 : Seg)].isClosing = false ∧ (addressed t).engines[(6 : Seg)].served = some 0 ∧
      (addressed t).ports[(0 : Port)].ctx = .addressing t) ∧ wr.dir = .write ∧ rd.dir = .read := by
  decide

theorem witness_RelayedBytesAnswered :
    (∀ s ∈ [clocking, fetching], s.engines[(6 : Seg)].activity = .clocking ∧ s.engines[(6 : Seg)].isClosing = false ∧
      s.engines[(6 : Seg)].served = some 0) ∧
    (clocking.engines[(6 : Seg)].state = .writing ∧ clocking.ports[(0 : Port)].ctx = .relayWrite wr) ∧
    fetching.engines[(6 : Seg)].state = .reading ∧ fetching.ports[(0 : Port)].ctx = .relayRead rd := by
  decide

/-- S6's engine closing a byte of state `st`, addressed in direction `d`. -/
def closing (st : EngState) (d : Dir) : State :=
  freeS6 (fun e => { e with state := st, activity := .clocking, closing := true, busOwned := true, target := some (0x50, d) })

theorem witness_ClosingBytesAndStops :
    (∀ s ∈ [closing .writing .write, closing .reading .read, closing .address .write, closing .address .read],
      s.engines[(6 : Seg)].activity = .clocking ∧ s.engines[(6 : Seg)].closing = true ∧ s.engines[(6 : Seg)].discarding = false) ∧
    (closing .writing .write).engines[(6 : Seg)].state = .writing ∧ (closing .reading .read).engines[(6 : Seg)].state = .reading ∧
    (closing .address .write).engines[(6 : Seg)].target = some (0x50, .write) ∧
    (closing .address .read).engines[(6 : Seg)].target = some (0x50, .read) ∧
    (let e := (freeS6 (fun e => { e with state := .reading, activity := .clocking, discarding := true })).engines[(6 : Seg)]
     e.activity = .clocking ∧ e.discarding = true) ∧
    (let s := addressing wr (fun e => { e with state := .stopping, busOwned := true })
     s.engines[(6 : Seg)].state = .stopping ∧ s.engines[(6 : Seg)].served = some 0 ∧ s.ports[(0 : Port)].ctx = .addressing wr) ∧
    (let e := (freeS6 (fun e => { e with state := .stopping, busOwned := true })).engines[(6 : Seg)]
     e.state = .stopping ∧ e.served = none) := by
  decide

/-- The hold timer of S6's engine runs. -/
def held (s : State) : State :=
  s.onEngine 6 (fun e => { e with hold := { clock := .running 30000 29999, data := .stopped } })

theorem witness_HeldLinesAndHoldExpiry :
    ((starting rd).engines[(6 : Seg)].state = .starting ∧ (starting rd).engines[(6 : Seg)].hold = .stopped) ∧
    (clocking.engines[(6 : Seg)].state = .writing ∧ clocking.engines[(6 : Seg)].activity = .clocking ∧
      clocking.engines[(6 : Seg)].hold = .stopped) ∧
    ((freeS6 (fun e => { e with state := .stopping, busOwned := true })).engines[(6 : Seg)].state = .stopping ∧
      (freeS6 (fun e => { e with state := .stopping, busOwned := true })).engines[(6 : Seg)].hold = .stopped) ∧
    (writing.engines[(6 : Seg)].state = .writing ∧ writing.engines[(6 : Seg)].activity = .none) ∧
    ((held (starting rd)).engines[(6 : Seg)].state ≠ .recovering ∧
      (held (starting rd)).engines[(6 : Seg)].hold.clock ≠ .stopped) ∧
    (∀ s ∈ [starting rd, addressed rd, clocking, fetching, closing .writing .write, resuming],
      (held s).engines[(6 : Seg)].hold ≠ .stopped) ∧
    (∀ s ∈ [starting rd, addressed rd], (held s).engines[(6 : Seg)].isClosing = false ∧
      (held s).segs[(6 : Seg)].state = .active 0 ∧ (held s).ports[(0 : Port)].ctx = .addressing rd) ∧
    (∀ s ∈ [clocking, fetching], (held s).engines[(6 : Seg)].isClosing = false ∧ (held s).engines[(6 : Seg)].served = some 0 ∧
      (held s).segs[(6 : Seg)].state = .active 0) ∧
    ((held (closing .writing .write)).engines[(6 : Seg)].isClosing = true ∧
      (held (closing .writing .write)).segs[(6 : Seg)].state = .idle) ∧
    (let s := held (addressing wr (fun e => { e with state := .stopping, busOwned := true }))
     s.engines[(6 : Seg)].state = .stopping ∧ s.segs[(6 : Seg)].state = .active 0 ∧ s.ports[(0 : Port)].ctx = .addressing wr) ∧
    (held ((closing .writing .write).onSeg 6 (fun a => { a with state := .disabled, enable := false }))).segs[(6 : Seg)].state =
      .disabled := by
  decide

theorem witness_RecoveryRunsToItsEnd :
    (∀ s ∈ [recovering 0 .look, recovering 7 .pulse, recovering 8 .pulse, recovering 9 .pulsing, recovering 3 .stop, resuming],
      s.engines[(6 : Seg)].state = .recovering ∧ s.segs[(6 : Seg)].queue.Nodup ∧ s.engines[(6 : Seg)].isClosing = false) ∧
    (∀ s ∈ [recovering 0 .look, recovering 7 .pulse, recovering 8 .pulse, recovering 9 .pulsing, recovering 3 .stop],
      (∀ p, s.segs[(6 : Seg)].state ≠ .recovering (some p)) ∧ s.engines[(6 : Seg)].hold.clock = .stopped ∧
        s.engines[(6 : Seg)].hold.data = .stopped) ∧
    ((recovering 0 .look).engines[(6 : Seg)].recStep = .look ∧ (recovering 7 .pulse).engines[(6 : Seg)].pulses + 1 < 9 ∧
      (recovering 8 .pulse).engines[(6 : Seg)].pulses = 8 ∧ (recovering 8 .pulse).engines[(6 : Seg)].recStep = .pulse ∧
      (recovering 9 .pulsing).engines[(6 : Seg)].recStep = .pulsing ∧ 9 ≤ (recovering 9 .pulsing).engines[(6 : Seg)].pulses) ∧
    (held (recovering 0 .look)).engines[(6 : Seg)].hold ≠ .stopped ∧
    (recovering 3 .stop).engines[(6 : Seg)].recStep = .stop ∧
    (resuming.segs[(6 : Seg)].state = .recovering (some 0) ∧ resuming.ports[(0 : Port)].ctx = .addressing rd ∧
      resuming.engines[(6 : Seg)].recStep = .look ∧
      ∀ q, resuming.segs[(6 : Seg)].state = .recovering (some q) → q ∉ resuming.segs[(6 : Seg)].queue) := by
  decide

theorem witness_ForeignMastersAndLosses :
    (recovering 0 .look).engines[(6 : Seg)].state = .recovering ∧
    (writing.engines[(6 : Seg)].busOwned = true ∧ writing.engines[(6 : Seg)].sharedMode = false ∧
      writing.segs[(6 : Seg)].shared = false ∧ writing.engines[(6 : Seg)].state ≠ .recovering ∧
      (writing.onSeg 6 (fun a => { a with shared := true })).segs[(6 : Seg)].shared = true) ∧
    (routed.engines[(6 : Seg)].state ≠ .recovering ∧ (shared (starting wr)).engines[(6 : Seg)].state ≠ .recovering) ∧
    ((shared routed).engines[(6 : Seg)].busOwned = false ∧ (shared routed).segs[(6 : Seg)].shared = true ∧
      routed.segs[(6 : Seg)].shared = false ∧ routed.engines[(6 : Seg)].foreignBusy = false) ∧
    (let e := ((shared (starting wr)).onEngine 6 (fun e => { e with foreignBusy := true })).engines[(6 : Seg)]
     e.busOwned = false ∧ e.foreignBusy = true ∧ e.state = .starting ∧ e.sharedMode = true ∧ e.target = some (0x50, .write)) ∧
    (∀ s ∈ [addressed wr, writing, reading, closing .writing .write], (shared s).engines[(6 : Seg)].sharedMode = true ∧
      (shared s).engines[(6 : Seg)].busOwned = true ∧ (shared s).engines[(6 : Seg)].state ≠ .recovering) ∧
    ((shared (addressed wr)).engines[(6 : Seg)].isClosing = false ∧ (shared (addressed wr)).engines[(6 : Seg)].state ≠ .stopping ∧
      (shared (addressed wr)).engines[(6 : Seg)].served = some 0 ∧
      (shared (addressed wr)).ports[(0 : Port)].ctx = .addressing wr ∧ (shared (addressed wr)).engines[(6 : Seg)].retry < 3) ∧
    3 ≤ ((shared (addressed wr)).onEngine 6 (fun e => { e with retry := 3 })).engines[(6 : Seg)].retry ∧
    ((shared writing).engines[(6 : Seg)].served = some 0 ∧ (shared writing).ports[(0 : Port)].ctx = .relayWrite wr) ∧
    ((shared (closing .writing .write)).engines[(6 : Seg)].isClosing = true ∧
      (shared (closing .writing .write)).engines[(6 : Seg)].served = none) ∧
    (let s := shared (addressing wr (fun e => { e with state := .stopping, busOwned := true }))
     s.engines[(6 : Seg)].state = .stopping ∧ s.engines[(6 : Seg)].served = some 0 ∧ s.ports[(0 : Port)].ctx = .addressing wr) := by
  decide

theorem witness_EventsThatCannotOccurAreRefused :
    writing.ports[(0 : Port)].ctx ≠ .idle ∧ (opOfCode 0x53).isSome = true ∧ opOfCode 0x15 = none ∧
    (∀ s ∈ [writing, reading, expecting 0 writing, expecting 0 (broken wr)], s.ports[(0 : Port)].clockHeld = false) ∧
    (writing.ports[(0 : Port)].ctx = .relayWrite wr ∧ writing.ports[(0 : Port)].addrExpected = false) ∧
    (reading.ports[(0 : Port)].ctx = .relayRead rd ∧ reading.ports[(0 : Port)].addrExpected = false) ∧
    (expecting 0 writing).ports[(0 : Port)].addrExpected = true ∧
    (expecting 0 (broken wr)).ports[(0 : Port)].ctx = .broken wr ∧
    ((broken rd).ports[(0 : Port)].ctx = .broken rd ∧ (broken rd).ports[(0 : Port)].addrExpected = false ∧
      (broken wr).ports[(0 : Port)].addrExpected = false) ∧
    (∀ s ∈ [broken rd, broken wr, answering 0 false, h0 (fun h => { h with ctx := .commandIn })],
      s.ports[(0 : Port)].clockHeld = false) ∧
    (answering 0 false).ports[(0 : Port)].ctx = .responseOut 0 false ∧
    (h0 (fun h => { h with ctx := .commandIn })).ports[(0 : Port)].ctx = .commandIn ∧
    routed.ports[(0 : Port)].abandon = .stopped ∧ exclusive.heldOn 25 = none ∧
    (routed.engines[(6 : Seg)].hold = .stopped ∧ routed.engines[(6 : Seg)].state = .quiet ∧
      routed.engines[(6 : Seg)].isClosing = false ∧ routed.engines[(6 : Seg)].sharedMode = false) ∧
    (closing .address .read).engines[(6 : Seg)].isClosing = true ∧ writing.engines[(6 : Seg)].activity ≠ .clocking ∧
    (recovering 3 .stop).engines[(6 : Seg)].recStep = .stop ∧ (recovering 3 .pulsing).engines[(6 : Seg)].recStep = .pulsing ∧
    (recovering 3 .pulse).engines[(6 : Seg)].recStep = .pulse ∧
    (recovering 3 .pulse).engines[(6 : Seg)].state = .recovering := by
  decide

end Sys2Proof.Tests
end

section
/-! SUPPORT. Invariants of every step packaged once, and the settings (directory, defaults, rights, straps, waiting commands),
which only commands and device reset change: every other shared operation keeps them. -/

namespace Sys2Proof.Machine

/-! ### Outcomes and invariants of the step -/

/-- Every next state of the outcome satisfies `P`. -/
def Ensures (r : Result) (P : State → Prop) : Prop := ∀ t, r = .next t → P t

@[simp] theorem ensures_next {t : State} {P : State → Prop} : Ensures (.next t) P ↔ P t :=
  ⟨fun h => h t rfl, by rintro h _ ⟨⟩; exact h⟩

@[simp] theorem ensures_fault {r : Fault} {P : State → Prop} : Ensures (.fault r) P := by rintro _ ⟨⟩

@[simp] theorem ensures_refused {r : Refusal} {P : State → Prop} : Ensures (.refused r) P := by rintro _ ⟨⟩

theorem Ensures.mono {r : Result} {P Q : State → Prop} (h : Ensures r P) (hPQ : ∀ t, P t → Q t) : Ensures r Q :=
  fun t ht => hPQ t (h t ht)

/-- A law that ignores the waiting commands, and that a tick and every row keep, is kept by every step. -/
theorem keptByStep_of_exec {Inv : State → Prop} (hpending : ∀ s rest, Inv s → Inv { s with pending := rest })
    (htick : ∀ s, Inv s → Inv s.tick) (hexec : ∀ i s, Inv s → Ensures (exec i s) Inv) : KeptByStep Inv := by
  intro s t hs hstep
  unfold step at hstep
  split at hstep
  · exact hexec _ _ (hpending s _ hs) t hstep
  · unfold idle at hstep
    split at hstep
    · exact hexec _ _ hs t hstep
    · cases hstep; exact htick s hs

/-! ### The settings -/

/-- What only commands and device reset change, and the waiting commands: the fields `SettingsSame` compares. -/
def State.settings (s : State) :
    Vector Entry 48 × Vector (Option Seg) 4 × Vector RightsRow 4 × BitVec 2 × BitVec 2 × List Instr :=
  (s.directory, s.defaults, s.rights, s.adr, s.admSel, s.pending)

theorem settings_eq_iff {s t : State} : t.settings = s.settings ↔ SettingsSame s t := by
  simp [State.settings, SettingsSame]

/-! One record of another table changed. -/

@[simp] theorem State.onPort_settings (s : State) (p : Port) (f : HostPort → HostPort) :
    (s.onPort p f).settings = s.settings := rfl
@[simp] theorem State.onSeg_settings (s : State) (m : Seg) (f : Arbiter → Arbiter) :
    (s.onSeg m f).settings = s.settings := rfl
@[simp] theorem State.onEngine_settings (s : State) (m : Seg) (f : Engine → Engine) :
    (s.onEngine m f).settings = s.settings := rfl
@[simp] theorem State.onNotices_settings (s : State) (p : Port) (f : NoticeQueue → NoticeQueue) :
    (s.onNotices p f).settings = s.settings := rfl
@[simp] theorem State.onBuffer_settings (s : State) (p : Port) (f : FrameBuffer → FrameBuffer) :
    (s.onBuffer p f).settings = s.settings := rfl
@[simp] theorem State.onResponse_settings (s : State) (p : Port) (f : Response → Response) :
    (s.onResponse p f).settings = s.settings := rfl
@[simp] theorem State.refuse_settings (s : State) (p : Port) (r : Reason) (t : Transfer) :
    (s.refuse p r t).settings = s.settings := rfl
@[simp] theorem State.post_settings (s : State) (p : Port) (k : NoticeKind) (e : Option EntryIx) (m : Option Seg)
    (tok : Byte) : (s.post p k e m tok).settings = s.settings := rfl
@[simp] theorem State.respond_settings (s : State) (p : Port) (st : Status) (echo : Byte) (payload : List Byte) :
    (s.respond p st echo payload).settings = s.settings := rfl
@[simp] theorem State.badArgument_settings (s : State) (p : Port) (op : Op) :
    (s.badArgument p op).settings = s.settings := rfl
@[simp] theorem State.startWait_settings (s : State) (m : Seg) (p : Port) : (s.startWait m p).settings = s.settings := rfl
@[simp] theorem State.stopWait_settings (s : State) (m : Seg) (p : Port) : (s.stopWait m p).settings = s.settings := rfl
@[simp] theorem State.leaveQueue_settings (s : State) (m : Seg) (p : Port) : (s.leaveQueue m p).settings = s.settings := rfl
@[simp] theorem State.setSegState_settings (s : State) (m : Seg) (st : SegState) :
    (s.setSegState m st).settings = s.settings := rfl
@[simp] theorem State.orderPhase_settings (s : State) (m : Seg) (p : Port) : (s.orderPhase m p).settings = s.settings := rfl
@[simp] theorem State.setLease_settings (s : State) (i : Slot) (l : Option Lease) :
    (s.setLease i l).settings = s.settings := rfl
@[simp] theorem State.afterIssue_settings (s : State) (tok : Byte) : (s.afterIssue tok).settings = s.settings := rfl
@[simp] theorem State.closeGap_settings (s : State) (e : EntryIx) (k : Nat) : (s.closeGap e k).settings = s.settings := rfl
@[simp] theorem State.makeLease_settings (s : State) (i : Slot) (p : Port) (e : EntryIx) (d : Nat) (st : LeaseStatus) :
    (s.makeLease i p e d st).settings = s.settings := rfl
@[simp] theorem State.tick_settings (s : State) : s.tick.settings = s.settings := rfl

/-! The relay path. -/

@[simp] theorem State.refuseWaiter_settings (s : State) (m : Seg) (r : Reason) (p : Port) :
    (s.refuseWaiter m r p).settings = s.settings :=
  settings_eq_iff.2 (s.refuseWaiter_frame m r p).2.2.1

@[simp] theorem State.refuseAll_settings (m : Seg) (r : Reason) (ps : List Port) (s : State) :
    (State.refuseAll m r ps s).settings = s.settings :=
  settings_eq_iff.2 (State.refuseAll_frame m r ps s).2.2.1

@[simp] theorem State.grant_settings (s : State) (m : Seg) (p : Port) (t : Transfer) :
    (s.grant m p t).settings = s.settings := by
  simp [State.grant]

@[simp] theorem State.enqueue_settings (s : State) (m : Seg) (p : Port) (t : Transfer) :
    (s.enqueue m p t).settings = s.settings := by
  simp [State.enqueue]

@[simp] theorem State.arrive_settings (s : State) (p : Port) (t : Transfer) : (s.arrive p t).settings = s.settings := by
  unfold State.arrive
  dsimp only
  repeat' split
  all_goals simp

@[simp] theorem State.serve_settings (m : Seg) (ps : List Port) (s : State) :
    (State.serve m ps s).settings = s.settings := by
  induction ps generalizing s with
  | nil => simp [State.serve]
  | cons p rest ih =>
    unfold State.serve
    dsimp only
    repeat' split
    all_goals simp [ih]

@[simp] theorem State.disableNow_settings (s : State) (m : Seg) : (s.disableNow m).settings = s.settings := by
  simp [State.disableNow]

@[simp] theorem State.handOver_settings (s : State) (m : Seg) : (s.handOver m).settings = s.settings := by
  unfold State.handOver
  split <;> simp

@[simp] theorem State.releaseBy_settings (s : State) (m : Seg) (p : Port) (f : Engine → Engine) :
    (s.releaseBy m p f).settings = s.settings := by
  simp [State.releaseBy]

@[simp] theorem State.release_settings (s : State) (m : Seg) (p : Port) : (s.release m p).settings = s.settings := by
  simp [State.release]

@[simp] theorem State.breakPort_settings (s : State) (m : Seg) (p : Port) (t : Transfer) (c : BreakCause) :
    (s.breakPort m p t c).settings = s.settings := by
  simp [State.breakPort]

@[simp] theorem State.beginRecovery_settings (s : State) (m : Seg) (b : Option Port) :
    (s.beginRecovery m b).settings = s.settings := by
  simp [State.beginRecovery]

@[simp] theorem State.postOutcome_settings (s : State) (m : Seg) (k : NoticeKind) :
    (s.postOutcome m k).settings = s.settings := by
  unfold State.postOutcome
  generalize s.recoveryAudience m = ps
  induction ps generalizing s with
  | nil => rfl
  | cons p ps ih => simp [ih]

@[simp] theorem State.resumeOrHandOver_settings (s : State) (m : Seg) : (s.resumeOrHandOver m).settings = s.settings := by
  unfold State.resumeOrHandOver
  split <;> simp

@[simp] theorem State.recoverySucceeds_settings (s : State) (m : Seg) : (s.recoverySucceeds m).settings = s.settings := by
  simp [State.recoverySucceeds]

@[simp] theorem State.failSegment_settings (s : State) (m : Seg) : (s.failSegment m).settings = s.settings := by
  unfold State.failSegment
  dsimp only
  split <;> simp

@[simp] theorem State.recoveryFails_settings (s : State) (m : Seg) (acts : List BusAct) :
    (s.recoveryFails m acts).settings = s.settings := by
  simp [State.recoveryFails]

@[simp] theorem State.holdExpiryUnserved_settings (s : State) (m : Seg) :
    (s.holdExpiryUnserved m).settings = s.settings := by
  unfold State.holdExpiryUnserved
  split <;> simp

@[simp] theorem State.lossInAddress_settings (s : State) (m : Seg) (p : Port) (t : Transfer) :
    (s.lossInAddress m p t).settings = s.settings := by
  unfold State.lossInAddress
  split <;> simp

@[simp] theorem State.lossInData_settings (s : State) (m : Seg) (p : Port) (t : Transfer) :
    (s.lossInData m p t).settings = s.settings := by
  simp [State.lossInData]

@[simp] theorem State.lossUnserved_settings (s : State) (m : Seg) : (s.lossUnserved m).settings = s.settings := by
  unfold State.lossUnserved
  split <;> simp

@[simp] theorem State.forceRecovery_settings (s : State) (m : Seg) : (s.forceRecovery m).settings = s.settings := by
  unfold State.forceRecovery
  repeat' split
  all_goals simp

/-! The host buses. -/

@[simp] theorem State.relayArrival_settings (s : State) (p : Port) (t : Transfer) :
    (s.relayArrival p t).settings = s.settings := by
  unfold State.relayArrival
  split <;> simp

@[simp] theorem State.classify_settings (s : State) (p : Port) (a : Addr) (d : Dir) :
    (s.classify p a d).settings = s.settings := by
  unfold State.classify State.enterCommandIn State.enterResponseOut
  repeat' split
  all_goals simp

@[simp] theorem State.sameSegment_settings (s : State) (p : Port) (t : Transfer) :
    (s.sameSegment p t).settings = s.settings := by
  unfold State.sameSegment
  split <;> simp

@[simp] theorem State.leaveSegment_settings (s : State) (m : Seg) (p : Port) (a : Addr) (d : Dir) :
    (s.leaveSegment m p a d).settings = s.settings := by
  simp [State.leaveSegment]

@[simp] theorem State.addressWhileHolding_settings (s : State) (m : Seg) (p : Port) (a : Addr) (d : Dir) :
    (s.addressWhileHolding m p a d).settings = s.settings := by
  unfold State.addressWhileHolding
  repeat' split
  all_goals simp

@[simp] theorem State.frameByte_settings (s : State) (p : Port) (b : Byte) : (s.frameByte p b).settings = s.settings := by
  unfold State.frameByte
  split <;> simp

@[simp] theorem State.endRelay_settings (s : State) (m : Seg) (p : Port) : (s.endRelay m p).settings = s.settings := by
  simp [State.endRelay]

@[simp] theorem State.postAbandoned_settings (s : State) (p : Port) (t : Option Transfer) :
    (s.postAbandoned p t).settings = s.settings := rfl

@[simp] theorem State.expireQueued_settings (s : State) (p : Port) (t : Transfer) :
    (s.expireQueued p t).settings = s.settings := by
  simp [State.expireQueued]

@[simp] theorem State.expireAddressing_settings (s : State) (p : Port) (t : Transfer) :
    (s.expireAddressing p t).settings = s.settings := by
  unfold State.expireAddressing
  split <;> simp

@[simp] theorem State.resetContext_settings (s : State) (q : Port) : (s.resetContext q).settings = s.settings := by
  unfold State.resetContext
  dsimp only
  repeat' split
  all_goals simp

/-! The Lease Table. -/

@[simp] theorem State.freeRecord_settings (s : State) (x : Slot × Lease) : (s.freeRecord x).settings = s.settings := by
  unfold State.freeRecord
  dsimp only
  split <;> simp

@[simp] theorem State.promote_settings (s : State) (e : EntryIx) : (s.promote e).settings = s.settings :=
  settings_eq_iff.2 (s.promote_frame e).2.2.1

@[simp] theorem State.freeAndPromote_settings (s : State) (x : Slot × Lease) :
    (s.freeAndPromote x).settings = s.settings := by
  simp [State.freeAndPromote]

@[simp] theorem State.expireLease_settings (s : State) (x : Slot × Lease) : (s.expireLease x).settings = s.settings := by
  simp [State.expireLease]

@[simp] theorem State.revoke_settings (s : State) (x : Slot × Lease) (c : RevokeCause) (m : Option Seg) :
    (s.revoke x c m).settings = s.settings := by
  simp [State.revoke]

@[simp] theorem State.revokeHeld_settings (s : State) (e : EntryIx) (c : RevokeCause) (m : Option Seg) :
    (s.revokeHeld e c m).settings = s.settings := by
  unfold State.revokeHeld
  split <;> simp

@[simp] theorem State.cancelPending_settings (e : EntryIx) (c : RevokeCause) (m : Option Seg) (n : Nat) (s : State) :
    (State.cancelPending e c m n s).settings = s.settings := by
  induction n generalizing s with
  | zero => rfl
  | succ n ih =>
    unfold State.cancelPending
    split <;> simp [ih]

@[simp] theorem State.clearEntry_settings (s : State) (e : EntryIx) (c d : RevokeCause) (m : Option Seg) :
    (s.clearEntry e c d m).settings = s.settings := by
  simp [State.clearEntry]

@[simp] theorem State.cancelUnseen_settings (e : EntryIx) (vis : PortMask) (m : Option Seg) (n : Nat) (s : State) :
    (State.cancelUnseen e vis m n s).settings = s.settings := by
  induction n generalizing s with
  | zero => rfl
  | succ n ih =>
    unfold State.cancelUnseen
    split <;> simp [ih]

@[simp] theorem State.loseVisibility_settings (s : State) (e : EntryIx) (vis : PortMask) (m : Option Seg) :
    (s.loseVisibility e vis m).settings = s.settings := by
  unfold State.loseVisibility
  repeat' split
  all_goals simp

@[simp] theorem State.cutHeld_settings (s : State) (e : EntryIx) (ms : Nat) : (s.cutHeld e ms).settings = s.settings := by
  unfold State.cutHeld
  split <;> simp

@[simp] theorem State.freeAllOwn_settings (s : State) (q : Port) : (s.freeAllOwn q).settings = s.settings :=
  settings_eq_iff.2 (s.freeAllOwn_frame q).2.2.1

@[simp] theorem State.portReset_settings (s : State) (p q : Port) : (s.portReset p q).settings = s.settings := by
  unfold State.portReset
  dsimp only
  split <;> simp

end Sys2Proof.Machine
end

section
/-! SUPPORT. What each row of the table can do to the settings: keep them, perform one command, or reset the part. -/

namespace Sys2Proof.Machine

/-! ### Commands that keep the settings -/

@[simp] theorem State.cmdRdrt_settings (s : State) (p : Port) (i : Byte) : (s.cmdRdrt p i).settings = s.settings := by
  unfold State.cmdRdrt
  split <;> simp

@[simp] theorem State.cmdLacq_settings (s : State) (p : Port) (i : Byte) (d : Half) (w : Byte) :
    (s.cmdLacq p i d w).settings = s.settings := by
  unfold State.cmdLacq
  dsimp only
  repeat' split
  all_goals simp

@[simp] theorem State.cmdLren_settings (s : State) (p : Port) (i tok : Byte) (d : Half) :
    (s.cmdLren p i tok d).settings = s.settings := by
  unfold State.cmdLren
  repeat' split
  all_goals simp

@[simp] theorem State.releaseLease_settings (s : State) (p : Port) (e : EntryIx) (tok : Byte) :
    (s.releaseLease p e tok).settings = s.settings := by
  unfold State.releaseLease
  repeat' split
  all_goals simp

@[simp] theorem State.cancelLease_settings (s : State) (p : Port) (e : EntryIx) :
    (s.cancelLease p e).settings = s.settings := by
  unfold State.cancelLease
  repeat' split
  all_goals simp

@[simp] theorem State.cmdLrel_settings (s : State) (p : Port) (i tok : Byte) : (s.cmdLrel p i tok).settings = s.settings := by
  unfold State.cmdLrel
  repeat' split
  all_goals simp

@[simp] theorem State.cmdLrev_settings (s : State) (p : Port) (i : Byte) : (s.cmdLrev p i).settings = s.settings := by
  unfold State.cmdLrev
  repeat' split
  all_goals simp

@[simp] theorem State.cmdLqry_settings (s : State) (p : Port) (i : Byte) : (s.cmdLqry p i).settings = s.settings := by
  unfold State.cmdLqry
  dsimp only
  repeat' split
  all_goals simp

@[simp] theorem State.cmdScfg_settings (s : State) (p : Port) (m en sh w h : Byte) :
    (s.cmdScfg p m en sh w h).settings = s.settings := by
  unfold State.cmdScfg
  split <;> simp

@[simp] theorem State.cmdSsta_settings (s : State) (p : Port) (m : Byte) : (s.cmdSsta p m).settings = s.settings := by
  unfold State.cmdSsta
  split <;> simp

@[simp] theorem State.cmdSrcv_settings (s : State) (p : Port) (m : Byte) : (s.cmdSrcv p m).settings = s.settings := by
  unfold State.cmdSrcv
  repeat' split
  all_goals simp

@[simp] theorem State.cmdNfet_settings (s : State) (p : Port) : (s.cmdNfet p).settings = s.settings := rfl

@[simp] theorem State.cmdPsta_settings (s : State) (p : Port) (q : Byte) : (s.cmdPsta p q).settings = s.settings := by
  unfold State.cmdPsta
  split <;> simp

@[simp] theorem State.cmdPrst_settings (s : State) (p : Port) (q : Byte) : (s.cmdPrst p q).settings = s.settings := by
  unfold State.cmdPrst
  split <;> simp

@[simp] theorem State.cmdIdnt_settings (s : State) (p : Port) : (s.cmdIdnt p).settings = s.settings := rfl

/-! ### What a row can do to the settings -/

/-- What an event that leads from `s` to `t` can do to the settings: nothing, what a command does from its arguments step
on, or what a device reset does. -/
inductive SettingsEffect (s t : State) : Prop
  | kept (h : t.settings = s.settings)
  | command (p : Port) (c : Command) (u : State) (hu : u.settings = s.settings) (ht : t = u.perform p c)
  | reset (adr admSel : BitVec 2) (ht : t = { State.resetWith adr admSel with pending := s.pending })

/-- Every next state of the outcome has the settings of `s`. -/
def KeepsSettings (s : State) (r : Result) : Prop := Ensures r (fun t => t.settings = s.settings)

theorem KeepsSettings.effect {s : State} {r : Result} (h : KeepsSettings s r) : Ensures r (SettingsEffect s) :=
  h.mono fun _ => .kept

/-- A command that goes through the rights step is performed or answered DENIED. -/
theorem State.runCommand_effect (s : State) (p : Port) (c : Command) : SettingsEffect s (s.runCommand p c) := by
  unfold State.runCommand
  split
  · exact .command p c s rfl rfl
  · exact .kept (by simp)

/-- The effect of an event that first changes other tables. -/
theorem SettingsEffect.of_settings {s u t : State} (hu : u.settings = s.settings) (h : SettingsEffect u t) :
    SettingsEffect s t := by
  cases h with
  | kept h => exact .kept (h.trans hu)
  | command p c v hv ht => exact .command p c v (hv.trans hu) ht
  | reset adr admSel ht =>
    have hp : u.pending = s.pending := (settings_eq_iff.1 hu).2.2.2.2.2
    exact .reset adr admSel (hp ▸ ht)

theorem State.takeFrame_effect (s : State) (p : Port) : SettingsEffect s (s.takeFrame p) := by
  unfold State.takeFrame
  dsimp only
  split
  · exact .kept (by simp)
  · split
    · exact .kept (by simp)
    · split
      · exact .kept (by simp)
      · split
        · exact .kept (by simp)
        · exact .of_settings (s.onBuffer_settings p _) (State.runCommand_effect _ p _)

theorem State.commandRow_effect (s : State) (p : Port) (c : Command) : Ensures (s.commandRow p c) (SettingsEffect s) := by
  unfold State.commandRow
  split
  · exact ensures_next.2 (s.runCommand_effect p c)
  · exact ensures_refused

theorem State.startCondition_effect (s : State) (p : Port) : Ensures (s.startCondition p) (SettingsEffect s) := by
  have hport (f : HostPort → HostPort) : SettingsEffect s (s.onPort p f) := .kept (by simp)
  have hframe : SettingsEffect s ((s.onPort p (HostPort.toIdle true)).takeFrame p) :=
    .of_settings (by simp) (State.takeFrame_effect _ p)
  unfold State.startCondition
  dsimp only
  repeat' split
  all_goals simp [hport, hframe]

theorem execStop_effect (p : Port) (s : State) : Ensures (execStop p s) (SettingsEffect s) := by
  have hport : SettingsEffect s (s.onPort p (HostPort.toIdle false)) := .kept (by simp)
  have hrelay (m : Seg) : SettingsEffect s (s.endRelay m p) := .kept (by simp)
  have hframe : SettingsEffect s ((s.onPort p (HostPort.toIdle false)).takeFrame p) :=
    .of_settings (by simp) (State.takeFrame_effect _ p)
  unfold execStop
  dsimp only
  repeat' split
  all_goals simp [hport, hrelay, hframe]

/-! ### Events of the host buses -/

theorem execAddressByte_settings (p : Port) (a : Addr) (d : Dir) (s : State) : KeepsSettings s (execAddressByte p a d s) := by
  unfold KeepsSettings execAddressByte
  dsimp only
  repeat' split
  all_goals simp

theorem execDataByte_settings (p : Port) (b : Byte) (s : State) : KeepsSettings s (execDataByte p b s) := by
  unfold KeepsSettings execDataByte
  dsimp only
  repeat' split
  all_goals simp

theorem execHostAcknowledge_settings (p : Port) (s : State) : KeepsSettings s (execHostAcknowledge p s) := by
  unfold KeepsSettings execHostAcknowledge
  dsimp only
  repeat' split
  all_goals simp

theorem execHostNotAcknowledge_settings (p : Port) (s : State) : KeepsSettings s (execHostNotAcknowledge p s) := by
  unfold KeepsSettings execHostNotAcknowledge
  dsimp only
  repeat' split
  all_goals simp

theorem execAbandonExpiry_settings (p : Port) (s : State) : KeepsSettings s (execAbandonExpiry p s) := by
  unfold KeepsSettings execAbandonExpiry
  repeat' split
  all_goals simp

theorem execWaitExpiry_settings (p : Port) (s : State) : KeepsSettings s (execWaitExpiry p s) := by
  unfold KeepsSettings execWaitExpiry
  repeat' split
  all_goals simp

/-! ### Events of the segments -/

theorem execLineCheckPassed_settings (m : Seg) (s : State) : KeepsSettings s (execLineCheckPassed m s) := by
  unfold KeepsSettings execLineCheckPassed
  dsimp only
  repeat' split
  all_goals simp

theorem execTargetAcknowledgesAddress_settings (m : Seg) (s : State) :
    KeepsSettings s (execTargetAcknowledgesAddress m s) := by
  unfold KeepsSettings execTargetAcknowledgesAddress
  repeat' split
  all_goals simp

theorem execTargetNack_settings (m : Seg) (s : State) : KeepsSettings s (execTargetNack m s) := by
  unfold KeepsSettings execTargetNack
  repeat' split
  all_goals simp

theorem execWriteByteAnswered_settings (m : Seg) (acked : Bool) (s : State) :
    KeepsSettings s (execWriteByteAnswered m acked s) := by
  unfold KeepsSettings execWriteByteAnswered
  split
  · split <;> simp
  · simp

theorem execReadByteFetched_settings (m : Seg) (b : Byte) (s : State) : KeepsSettings s (execReadByteFetched m b s) := by
  unfold KeepsSettings execReadByteFetched
  repeat' split
  all_goals simp

theorem execClosingByteFinished_settings (m : Seg) (acked : Bool) (s : State) :
    KeepsSettings s (execClosingByteFinished m acked s) := by
  unfold KeepsSettings execClosingByteFinished
  split <;> simp

theorem execStopComplete_settings (m : Seg) (s : State) : KeepsSettings s (execStopComplete m s) := by
  unfold KeepsSettings execStopComplete
  split <;> simp

theorem execLineHeld_settings (m : Seg) (l : Line) (s : State) : KeepsSettings s (execLineHeld m l s) := by
  unfold KeepsSettings execLineHeld
  dsimp only
  repeat' split
  all_goals simp

theorem execLineReleased_settings (m : Seg) (l : Line) (s : State) : KeepsSettings s (execLineReleased m l s) := by
  unfold KeepsSettings execLineReleased
  split <;> simp

theorem execHoldTimerExpiry_settings (m : Seg) (s : State) : KeepsSettings s (execHoldTimerExpiry m s) := by
  unfold KeepsSettings execHoldTimerExpiry
  dsimp only
  repeat' split
  all_goals simp

theorem execRecoveryPulse_settings (m : Seg) (dataHigh : Bool) (s : State) :
    KeepsSettings s (execRecoveryPulse m dataHigh s) := by
  unfold KeepsSettings execRecoveryPulse
  dsimp only
  repeat' split
  all_goals simp

theorem execRecoverySucceeded_settings (m : Seg) (s : State) : KeepsSettings s (execRecoverySucceeded m s) := by
  unfold KeepsSettings execRecoverySucceeded
  split <;> simp

theorem State.lose_settings (s : State) (m : Seg) : KeepsSettings s (s.lose m) := by
  unfold KeepsSettings State.lose
  dsimp only
  repeat' split
  all_goals simp

theorem execArbitrationLoss_settings (m : Seg) (s : State) : KeepsSettings s (execArbitrationLoss m s) := by
  unfold execArbitrationLoss
  split
  · exact s.lose_settings m
  · exact ensures_refused

theorem execForeignStart_settings (m : Seg) (s : State) : KeepsSettings s (execForeignStart m s) := by
  unfold execForeignStart
  dsimp only
  split
  · exact s.lose_settings m
  · split <;> simp [KeepsSettings]

theorem execForeignStop_settings (m : Seg) (linesHigh : Bool) (s : State) :
    KeepsSettings s (execForeignStop m linesHigh s) := by
  unfold execForeignStop
  dsimp only
  split
  · exact s.lose_settings m
  · unfold KeepsSettings
    repeat' split
    all_goals simp

/-! ### The remaining rows -/

theorem execLeaseExpiry_settings (e : EntryIx) (s : State) : KeepsSettings s (execLeaseExpiry e s) := by
  unfold KeepsSettings execLeaseExpiry
  split <;> simp

theorem execBadCommand_settings (p : Port) (code : Byte) (s : State) : KeepsSettings s (execBadCommand p code s) := by
  unfold KeepsSettings execBadCommand
  repeat' split
  all_goals simp

/-- Every row keeps the settings, performs one command, or resets the part. -/
theorem exec_effect (i : Instr) (s : State) : Ensures (exec i s) (SettingsEffect s) := by
  cases i with
  | deviceReset adr admSel => exact ensures_next.2 (.reset adr admSel rfl)
  | start p => exact s.startCondition_effect p
  | repeatedStart p => exact s.startCondition_effect p
  | stop p => exact execStop_effect p s
  | addressByte p a d => exact (execAddressByte_settings p a d s).effect
  | dataByte p b => exact (execDataByte_settings p b s).effect
  | hostAcknowledge p => exact (execHostAcknowledge_settings p s).effect
  | hostNotAcknowledge p => exact (execHostNotAcknowledge_settings p s).effect
  | abandonExpiry p => exact (execAbandonExpiry_settings p s).effect
  | waitExpiry p => exact (execWaitExpiry_settings p s).effect
  | lineCheckPassed m => exact (execLineCheckPassed_settings m s).effect
  | targetAcknowledgesAddress m => exact (execTargetAcknowledgesAddress_settings m s).effect
  | targetNack m => exact (execTargetNack_settings m s).effect
  | writeByteAnswered m acked => exact (execWriteByteAnswered_settings m acked s).effect
  | readByteFetched m b => exact (execReadByteFetched_settings m b s).effect
  | closingByteFinished m acked => exact (execClosingByteFinished_settings m acked s).effect
  | stopComplete m => exact (execStopComplete_settings m s).effect
  | holdTimerExpiry m => exact (execHoldTimerExpiry_settings m s).effect
  | recoveryPulse m dataHigh => exact (execRecoveryPulse_settings m dataHigh s).effect
  | recoverySucceeded m => exact (execRecoverySucceeded_settings m s).effect
  | foreignStart m => exact (execForeignStart_settings m s).effect
  | foreignStop m linesHigh => exact (execForeignStop_settings m linesHigh s).effect
  | arbitrationLoss m => exact (execArbitrationLoss_settings m s).effect
  | leaseExpiry e => exact (execLeaseExpiry_settings e s).effect
  | badCommand p code => exact (execBadCommand_settings p code s).effect
  | lineHeld m l => exact (execLineHeld_settings m l s).effect
  | lineReleased m l => exact (execLineReleased_settings m l s).effect
  | _ => exact s.commandRow_effect _ _

/-- A law of the settings alone that ignores the waiting commands, holds at reset and is kept by every command is kept by
every step. -/
theorem keptByStep_of_settings {Inv : State → Prop} (hcongr : ∀ {s t : State}, t.settings = s.settings → Inv s → Inv t)
    (hpending : ∀ s rest, Inv s → Inv { s with pending := rest })
    (hreset : ∀ adr admSel, Inv (State.resetWith adr admSel))
    (hperform : ∀ s p c, Inv s → Inv (s.perform p c)) : KeptByStep Inv := by
  refine keptByStep_of_exec hpending (fun s => hcongr s.tick_settings) fun i s hs => (exec_effect i s).mono fun t ht => ?_
  cases ht with
  | kept h => exact hcongr h hs
  | command p c u hu ht => exact ht ▸ hperform u p c (hcongr hu hs)
  | reset adr admSel ht => exact ht ▸ hpending _ _ (hreset adr admSel)

end Sys2Proof.Machine
end

section
/-! SUPPORT. The law of the directory (R26): what the arguments steps of INSR and MODR assure, and that every command and so
every step keeps the law. -/

namespace Sys2Proof.Machine

/-! ### Argument decoders read back -/

/-- What the arguments step of INSR assures of the route it describes (R28). -/
theorem decodeInsr_some {index vb span seg tb vis wp mode : Byte} {ml : Half} {e : EntryIx} {r : Route}
    (h : decodeInsr index vb span seg tb vis wp mode ml = some (e, r)) :
    aligned r.vbase r.span = true ∧ aligned r.tbase r.span = true ∧ masksOk r.vis r.wp = true ∧
      decodeDuration ml = some r.maxLease := by
  simp only [decodeInsr, Option.bind_eq_bind, Option.bind_eq_some_iff] at h
  obtain ⟨i, -, sp, -, m, -, b, -, t, -, v, -, w, -, md, -, d, hd, h⟩ := h
  split at h
  · rename_i hok
    cases h
    simp only [Bool.and_eq_true, and_assoc] at hok
    exact ⟨hok.1, hok.2.1, hok.2.2, hd⟩
  · cases h

/-- What the arguments step of MODR assures of the access fields (R33). -/
theorem decodeModr_some {index vis wp mode : Byte} {ml : Half} {e : EntryIx} {x : AccessFields}
    (h : decodeModr index vis wp mode ml = some (e, x)) :
    masksOk x.vis x.wp = true ∧ decodeDuration ml = some x.maxLease := by
  simp only [decodeModr, Option.bind_eq_bind, Option.bind_eq_some_iff] at h
  obtain ⟨i, -, v, -, w, -, md, -, d, hd, h⟩ := h
  split at h
  · cases h
    exact ⟨‹_›, hd⟩
  · cases h

/-- A duration or max lease that is taken lies in 1 to 65,535 ms. -/
theorem decodeDuration_range {h : Half} {d : Nat} (hd : decodeDuration h = some d) : 1 ≤ d ∧ d ≤ 65535 := by
  have hlt : h.toNat < 65536 := h.isLt
  unfold decodeDuration at hd
  split at hd
  · cases hd
  · cases hd; omega

/-! ### Ranges and conflicts -/

/-- A range within 0x08 to 0x77 holds no reserved address (R29). -/
theorem reservedAddr_of_rangeFree {b : Addr} {sp : Span} (h : rangeFree b sp = true) {a : Addr}
    (ha : inRange b sp a = true) : reservedAddr a = false := by
  rw [inRange_iff] at ha
  simp only [rangeFree, Bool.and_eq_true, decide_eq_true_eq] at h
  simp only [reservedAddr, Bool.or_eq_false_iff, decide_eq_false_iff_not]
  omega

theorem visibleConflict_comm (r o : Route) : visibleConflict r o = visibleConflict o r := by
  simp [visibleConflict, rangesMeet, BitVec.and_comm, Bool.and_comm]

theorem targetConflict_comm (r o : Route) : targetConflict r o = targetConflict o r := by
  simp [targetConflict, rangesMeet, Bool.and_comm, eq_comm]

/-- The target condition reads the segment, the target base and the span alone, which a MODR keeps (R34). -/
theorem targetConflict_withAccess (r o : Route) (x : AccessFields) :
    targetConflict (r.withAccess x) o = targetConflict r o := rfl

/-! ### Routes of a changed directory -/

theorem State.route_onEntry_self (s : State) (e : EntryIx) (f : Entry → Entry) :
    (s.onEntry e f).route e = (f s.directory[e]).route := by
  simp [State.route]

theorem State.route_onEntry_other (s : State) {e i : EntryIx} (h : i ≠ e) (f : Entry → Entry) :
    (s.onEntry e f).route i = s.route i := by
  simp only [State.route, State.onEntry_directory, tabUpd_other _ _ _ _ h.symm]

/-! ### The law of the directory -/

/-- The law reads the directory and the own address alone. -/
theorem DirectoryLaw.congr {s t : State} (hd : t.directory = s.directory) (ha : t.adr = s.adr) (h : DirectoryLaw s) :
    DirectoryLaw t := by
  have hr : t.route = s.route := by funext e; simp [State.route, hd]
  have ho : t.ownAddr = s.ownAddr := by simp [State.ownAddr, ha]
  unfold DirectoryLaw at h ⊢
  rwa [hr, ho]

theorem DirectoryLaw.of_settings {s t : State} (ht : t.settings = s.settings) (h : DirectoryLaw s) : DirectoryLaw t := by
  obtain ⟨hd, -, -, ha, -, -⟩ := settings_eq_iff.1 ht
  exact h.congr hd ha

/-- A directory without INSTALLED entries is lawful. -/
theorem DirectoryLaw.of_free {s : State} (h : ∀ e, s.route e = none) : DirectoryLaw s := by
  constructor
  · intro e r hr
    simp [h e] at hr
  · intro e f r o hr
    simp [h e] at hr

/-- A record freed leaves the law in force. -/
theorem DirectoryLaw.remove {s : State} (h : DirectoryLaw s) {e : EntryIx} {f : Entry → Entry}
    (hf : (f s.directory[e]).route = none) : DirectoryLaw (s.onEntry e f) := by
  obtain ⟨hlawful, hapart⟩ := h
  have hold {i : EntryIx} {r : Route} (hr : (s.onEntry e f).route i = some r) : s.route i = some r := by
    by_cases hi : i = e
    · subst hi; rw [State.route_onEntry_self, hf] at hr; cases hr
    · rwa [State.route_onEntry_other s hi] at hr
  exact ⟨fun i r hr => hlawful i r (hold hr), fun i j r o hr ho => hapart i j r o (hold hr) (hold ho)⟩

/-- A lawful route in conflict with no other INSTALLED entry leaves the law in force (R26). -/
theorem DirectoryLaw.install {s : State} (h : DirectoryLaw s) {e : EntryIx} {f : Entry → Entry} {r : Route}
    (hf : (f s.directory[e]).route = some r) (hr : r.Lawful s.ownAddr)
    (hapart : ∀ (i : EntryIx) (o : Route), i ≠ e → s.route i = some o →
      visibleConflict r o = false ∧ targetConflict r o = false) : DirectoryLaw (s.onEntry e f) := by
  have hself : (s.onEntry e f).route e = some r := (s.route_onEntry_self e f).trans hf
  have hother {i : EntryIx} (hi : i ≠ e) : (s.onEntry e f).route i = s.route i := s.route_onEntry_other hi f
  constructor
  · intro i o ho
    by_cases hi : i = e
    · subst hi; rw [hself] at ho; cases ho; exact hr
    · exact h.1 i o (hother hi ▸ ho)
  · intro i j o q ho hq hij
    by_cases hi : i = e
    · subst hi
      rw [hself] at ho; cases ho
      exact hapart j q hij.symm (hother hij.symm ▸ hq)
    · rw [hother hi] at ho
      by_cases hj : j = e
      · subst hj
        rw [hself] at hq; cases hq
        rw [visibleConflict_comm, targetConflict_comm]
        exact hapart i o hi ho
      · exact h.2 i j o q ho (hother hj ▸ hq) hij

/-- A route that passes the checks of R28 and R29 is lawful. -/
theorem Route.lawful_of_insr {s : State} {index vb span seg tb vis wp mode : Byte} {ml : Half} {e : EntryIx} {r : Route}
    (hd : decodeInsr index vb span seg tb vis wp mode ml = some (e, r)) (hfree : s.addressesFree r = true) :
    r.Lawful s.ownAddr := by
  obtain ⟨hv, ht, hm, hl⟩ := decodeInsr_some hd
  obtain ⟨hl₁, hl₂⟩ := decodeDuration_range hl
  simp only [State.addressesFree, Bool.and_eq_true, Bool.not_eq_true', and_assoc] at hfree
  obtain ⟨hfv, hown, hft⟩ := hfree
  refine ⟨hv, ht, hm, hl₁, hl₂, fun a ha => ⟨reservedAddr_of_rangeFree hfv ha, ?_⟩,
    fun a ha => reservedAddr_of_rangeFree hft ha⟩
  rintro rfl
  exact absurd ha (by simp [hown])

/-- A lawful route keeps its law with the access fields of a MODR (R33, R34). -/
theorem Route.Lawful.withAccess {own : Addr} {r : Route} (h : r.Lawful own) {index vis wp mode : Byte} {ml : Half}
    {e : EntryIx} {x : AccessFields} (hd : decodeModr index vis wp mode ml = some (e, x)) :
    (r.withAccess x).Lawful own := by
  obtain ⟨hm, hl⟩ := decodeModr_some hd
  obtain ⟨hl₁, hl₂⟩ := decodeDuration_range hl
  obtain ⟨hv, ht, -, -, -, hav, hat⟩ := h
  exact ⟨hv, ht, hm, hl₁, hl₂, hav, hat⟩

/-! ### The commands that edit the directory -/

theorem DirectoryLaw.cmdInsr {s : State} (h : DirectoryLaw s) (p : Port) (index vb span seg tb vis wp mode : Byte)
    (ml : Half) : DirectoryLaw (s.cmdInsr p index vb span seg tb vis wp mode ml) := by
  have answered (st : Status) (payload : List Byte) : DirectoryLaw (s.respond p st (opCode .insr) payload) :=
    h.of_settings (by simp)
  unfold State.cmdInsr
  split
  · exact answered .badArgument []
  · rename_i e r hd
    split
    · exact answered ..
    · split
      · exact answered ..
      · rename_i hfree
        split
        · exact answered ..
        · rename_i hnone
          refine DirectoryLaw.of_settings (State.respond_settings ..) (h.install rfl ?_ (State.insrConflict_none.1 hnone))
          exact Route.lawful_of_insr hd (by simpa using hfree)

theorem DirectoryLaw.cmdDelr {s : State} (h : DirectoryLaw s) (p : Port) (index : Byte) :
    DirectoryLaw (s.cmdDelr p index) := by
  unfold State.cmdDelr
  split
  · exact h.of_settings (by simp)
  · rename_i e _
    split
    · exact h.of_settings (by simp)
    · exact DirectoryLaw.of_settings (by simp) (h.remove (e := e) (f := fun x => { x with route := none }) rfl)

theorem DirectoryLaw.cmdModr {s : State} (h : DirectoryLaw s) (p : Port) (index vis wp mode : Byte) (ml : Half) :
    DirectoryLaw (s.cmdModr p index vis wp mode ml) := by
  unfold State.cmdModr
  split
  · exact h.of_settings (by simp)
  · rename_i e x hd
    split
    · exact h.of_settings (by simp)
    · rename_i r hr
      split
      · exact h.of_settings (by simp)
      · rename_i hnone
        have hapart (i : EntryIx) (o : Route) (hi : i ≠ e) (ho : s.route i = some o) :
            visibleConflict (r.withAccess x) o = false ∧ targetConflict (r.withAccess x) o = false :=
          ⟨State.modrConflict_none.1 hnone i o hi ho,
            (targetConflict_withAccess r o x).trans (h.2 e i r o hr ho hi.symm).2⟩
        exact DirectoryLaw.of_settings (by simp)
          (h.install (f := fun y => { y with route := some (r.withAccess x) }) rfl ((h.1 e r hr).withAccess hd) hapart)

theorem DirectoryLaw.cmdDflt {s : State} (h : DirectoryLaw s) (p : Port) (port segment : Byte) :
    DirectoryLaw (s.cmdDflt p port segment) := by
  unfold State.cmdDflt
  split <;> exact h.congr (by simp [State.badArgument]) (by simp [State.badArgument])

theorem DirectoryLaw.cmdRght {s : State} (h : DirectoryLaw s) (p : Port) (port rights quota : Byte) :
    DirectoryLaw (s.cmdRght p port rights quota) := by
  unfold State.cmdRght
  split
  · exact h.of_settings (by simp)
  · split
    · exact h.of_settings (by simp)
    · exact h.congr (by simp) (by simp)

/-- Every command, from its arguments step on, keeps the law of the directory. -/
theorem DirectoryLaw.perform {s : State} (h : DirectoryLaw s) (p : Port) (c : Command) : DirectoryLaw (s.perform p c) := by
  cases c with
  | insr => exact h.cmdInsr ..
  | delr => exact h.cmdDelr ..
  | modr => exact h.cmdModr ..
  | dflt => exact h.cmdDflt ..
  | rght => exact h.cmdRght ..
  | _ => exact h.of_settings (by simp [State.perform])

/-- Settles O5: the law reads the settings alone, so only the commands that edit the directory can bear on it; INSR installs
what passed the checks of R28 to R30, MODR keeps the ranges and passes R33's, and DELR only takes an entry away. -/
theorem directoryLawKept : Obligations.DirectoryLawKept := by
  unfold Obligations.DirectoryLawKept
  refine keptByStep_of_settings DirectoryLaw.of_settings (fun s rest h => h.congr rfl rfl) (fun adr admSel => ?_)
    (fun s p c h => h.perform p c)
  exact .of_free fun e => by simp [State.route, State.resetWith, Entry.reset]

end Sys2Proof.Machine
end

section
/-! SUPPORT. Resolution in a lawful directory (R24 to R26), and the commands RDRT (R35) and DFLT (R36). -/

namespace Sys2Proof.Machine

/-! ### Resolution (R24, R25) -/

/-- An aligned range ends at or below the end of the address space. -/
theorem aligned_end_le {b : Addr} {sp : Span} (h : aligned b sp = true) : b.toNat + sp.size ≤ 128 := by
  have hb : b.toNat < 128 := b.isLt
  have hmod : b.toNat % sp.size = 0 := of_decide_eq_true h
  cases sp <;> simp only [Span.size] at hmod ⊢ <;> omega

/-- Translation keeps the distance from the base, and the target lies in the target range (R24). -/
theorem Route.translate_spec {r : Route} {a : Addr} (ht : aligned r.tbase r.span = true)
    (ha : inRange r.vbase r.span a = true) :
    (r.translate a).toNat = r.tbase.toNat + (a.toNat - r.vbase.toNat) ∧
      inRange r.tbase r.span (r.translate a) = true := by
  rw [inRange_iff] at ha
  have hend := aligned_end_le ht
  have ha' : a.toNat < 128 := a.isLt
  have hx : (r.translate a).toNat = r.tbase.toNat + (a.toNat - r.vbase.toNat) := by
    simp only [Route.translate, BitVec.toNat_add, BitVec.toNat_sub]
    omega
  refine ⟨hx, ?_⟩
  rw [inRange_iff, hx]
  omega

theorem Route.sees_iff (r : Route) (p : Port) (a : Addr) :
    r.sees p a = true ↔ hasPort r.vis p = true ∧ inRange r.vbase r.span a = true := by
  simp [Route.sees]

/-- In a lawful directory a port sees an address in one entry at most (R25, R26). -/
theorem DirectoryLaw.sees_unique {s : State} (h : DirectoryLaw s) {p : Port} {a : Addr} {e f : EntryIx} {r o : Route}
    (hr : s.route e = some r) (ho : s.route f = some o) (her : r.sees p a = true) (hfo : o.sees p a = true) : e = f := by
  by_contra hne
  rw [Route.sees_iff] at her hfo
  have hmeet : visibleConflict r o = true := visibleConflict_iff r o |>.2 ⟨⟨p, her.1, hfo.1⟩, a, her.2, hfo.2⟩
  exact absurd hmeet (by simp [(h.2 e f r o hr ho hne).1])

/-- In a lawful directory the entry a port sees at an address is the one that is found. -/
theorem DirectoryLaw.entryAt_eq {s : State} (h : DirectoryLaw s) {p : Port} {a : Addr} {e : EntryIx} {r : Route}
    (hr : s.route e = some r) (hsees : r.sees p a = true) : s.entryAt p a = some e := by
  cases hf : s.entryAt p a with
  | none => exact absurd hsees (by simp [State.entryAt_none.1 hf e r hr])
  | some f =>
    obtain ⟨o, ho, hfo⟩ := State.entryAt_some hf
    rw [h.sees_unique hr ho hsees hfo]

theorem State.resolve_entry {s : State} {p : Port} {a : Addr} {e : EntryIx} {r : Route} (he : s.entryAt p a = some e)
    (hr : s.route e = some r) :
    s.resolve p a = some { entry := some (e, s.directory[e].gen), seg := r.seg, target := r.translate a } := by
  simp only [State.resolve, he, hr]

theorem State.resolve_default {s : State} {p : Port} {a : Addr} (he : s.entryAt p a = none) :
    s.resolve p a = (s.defaults[p]).map (fun m => { entry := none, seg := m, target := a }) := by
  simp only [State.resolve, he]
  cases s.defaults[p] <;> rfl

/-- Settles O44: R26 makes the entry that the port sees the one that is found, and its aligned target range keeps the
translation from wrapping. -/
theorem resolutionFindsEntry : Obligations.ResolutionFindsEntry := by
  unfold Obligations.ResolutionFindsEntry
  intro p a s hlaw
  constructor
  · intro e r hr hp ha
    have he := hlaw.entryAt_eq hr ((Route.sees_iff r p a).2 ⟨hp, ha⟩)
    exact ⟨r.translate a, State.resolve_entry he hr, Route.translate_spec (hlaw.1 e r hr).2.1 ha⟩
  · intro hnone
    refine State.resolve_default (State.entryAt_none.2 fun e r hr => ?_)
    rw [← Bool.not_eq_true, Route.sees_iff]
    rintro ⟨hp, ha⟩
    exact absurd ha (by simp [hnone e r hr hp])

/-! ### RDRT (R35) -/

/-- The two bytes of a count (R158). -/
theorem halfBytes_eq (n : Nat) : halfBytes n = [BitVec.ofNat 8 (n / 256), BitVec.ofNat 8 (n % 256)] := by
  simp only [halfBytes, hiByte, loByte, List.cons.injEq, and_true]
  constructor <;> apply BitVec.eq_of_toNat_eq <;> simp only [BitVec.toNat_ofNat] <;> omega

theorem addrByte_eq (a : Addr) : addrByte a = a.setWidth 8 := by
  simp [addrByte]

theorem maskByte_eq (m : PortMask) : maskByte m = m.setWidth 8 := by
  simp [maskByte]

theorem modeByte_eq (m : Mode) : modeByte m = if m = .exclusive then 0x01#8 else 0x00#8 := by
  cases m <;> rfl

/-- The payload of an INSTALLED record (R35, R160). -/
theorem Entry.payload_installed {x : Entry} {r : Route} (h : x.route = some r) (e : EntryIx) :
    x.payload e = [entryByte e, 0x01#8, x.gen, r.vbase.setWidth 8, BitVec.ofNat 8 r.span.size, BitVec.ofNat 8 r.seg.val,
      r.tbase.setWidth 8, r.vis.setWidth 8, r.wp.setWidth 8, (if r.mode = .exclusive then 0x01#8 else 0x00#8),
      BitVec.ofNat 8 (r.maxLease / 256), BitVec.ofNat 8 (r.maxLease % 256)] := by
  simp only [Entry.payload, h, halfBytes_eq, addrByte_eq, maskByte_eq, modeByte_eq, countByte, segByte, List.cons_append,
    List.nil_append]

/-- The payload of a FREE record (R35, R158, R160). -/
theorem Entry.payload_free {x : Entry} (h : x.route = none) (e : EntryIx) :
    x.payload e =
      [entryByte e, 0x00#8, x.gen, 0xFF#8, 0xFF#8, 0xFF#8, 0xFF#8, 0xFF#8, 0xFF#8, 0xFF#8, 0x00#8, 0x00#8] := by
  simp only [Entry.payload, h, absent]
  rfl

/-- RDRT needs no right, and answers with the record's payload. -/
theorem exec_rdrt {p : Port} {s : State} (hidle : s.ports[p].ctx = .idle) (index : Byte) :
    exec (.rdrt p index) s = .next (s.cmdRdrt p index) :=
  exec_row_permitted (c := .rdrt index) ⟨hidle, trivial⟩

theorem State.cmdRdrt_entry (s : State) (p : Port) (e : EntryIx) :
    s.cmdRdrt p (entryByte e) = s.respond p .ok 0x13#8 (s.directory[e].payload e) := by
  simp only [State.cmdRdrt, decodeEntry_entryByte]
  rfl

/-- Settles O21. -/
theorem rdrtReportsEntry : Obligations.RdrtReportsEntry := by
  unfold Obligations.RdrtReportsEntry
  intro p s hidle
  refine ⟨fun e r hr => ?_, fun e hr => ?_, fun index hindex => ?_⟩
  · rw [exec_rdrt hidle, State.cmdRdrt_entry, Entry.payload_installed hr]
  · rw [exec_rdrt hidle, State.cmdRdrt_entry, Entry.payload_free hr]
  · rw [exec_rdrt hidle]
    simp only [State.cmdRdrt, decodeEntry_none.2 hindex]
    rfl

/-! ### DFLT (R36) -/

theorem exec_dflt {p : Port} {s : State} (hidle : s.ports[p].ctx = .idle) (hroute : s.rights[p].rights.route = true)
    (port segment : Byte) : exec (.dflt p port segment) s = .next (s.cmdDflt p port segment) :=
  exec_row_permitted (c := .dflt port segment) ⟨hidle, hroute⟩

@[simp] theorem decodeDflt_bytes (q : Port) (d : Option Seg) :
    decodeDflt (portByte q) (segOrAbsent d) = some (q, d) := by
  simp [decodeDflt]

/-- The arguments step of DFLT refuses a port above 3 and a segment byte that is neither 0 to 7 nor 0xFF. -/
theorem decodeDflt_none {port segment : Byte} (h : 3 < port.toNat ∨ 7 < segment.toNat ∧ segment ≠ 0xFF#8) :
    decodeDflt port segment = none := by
  rcases h with h | h
  · simp [decodeDflt, decodePort_none.2 h]
  · simp [decodeDflt, decodeDefault_none.2 h]

/-- Settles O22. -/
theorem dfltSetsDefault : Obligations.DfltSetsDefault := by
  unfold Obligations.DfltSetsDefault
  intro p s hidle hroute
  constructor
  · intro q d
    rw [exec_dflt hidle hroute]
    simp only [State.cmdDflt, decodeDflt_bytes]
    rfl
  · intro port segment hbad
    rw [exec_dflt hidle hroute]
    simp only [State.cmdDflt, decodeDflt_none hbad]
    rfl

end Sys2Proof.Machine
end

section
/-! SUPPORT. A lease record freed (R113), a revocation (R125 to R127) and every record on an entry cleared (R125, R126); DELR. -/

namespace Sys2Proof.Machine

/-! ### A record freed -/

/-- What freeing the record `x` does to another record: a request behind a freed request of its entry moves one place
forward, and nothing else changes (R113). -/
def Lease.afterFree (x l : Lease) : Lease := if x.isHeld then l else l.moveUp x.entry x.order

theorem Lease.afterFree_held {x : Lease} (h : x.isHeld = true) (l : Lease) : x.afterFree l = l := by
  simp [Lease.afterFree, h]

theorem Lease.afterFree_pending {x : Lease} (h : x.isHeld = false) (l : Lease) :
    x.afterFree l = l.moveUp x.entry x.order := by
  simp [Lease.afterFree, h]

/-- A record keeps its port, entry, state and token when another is freed. -/
theorem Lease.afterFree_same (x l : Lease) :
    (x.afterFree l).port = l.port ∧ (x.afterFree l).entry = l.entry ∧ (x.afterFree l).isHeld = l.isHeld ∧
      (x.afterFree l).token = l.token := by
  cases hx : x.isHeld with
  | true => simp [Lease.afterFree_held hx]
  | false =>
    rw [Lease.afterFree_pending hx]
    obtain ⟨hport, hentry, -, -, hheld, htoken, -⟩ := l.moveUp_same x.entry x.order
    exact ⟨hport, hentry, hheld, htoken⟩

/-- A record of another entry stays as it is. -/
theorem Lease.afterFree_other {x l : Lease} (h : l.entry ≠ x.entry) : x.afterFree l = l := by
  unfold Lease.afterFree Lease.moveUp
  split
  · rfl
  · split
    · simp [h]
    · rfl

/-- The slots after a record is freed. -/
theorem State.freeRecord_leases (s : State) (i j : Slot) (x : Lease) :
    (s.freeRecord (i, x)).leases[j] = if i = j then none else (s.leases[j]).map x.afterFree := by
  by_cases hij : i = j
  · subst hij
    cases hx : x.isHeld <;> simp [State.freeRecord, hx]
  · have hval : i.val ≠ j.val := fun h => hij (Fin.ext h)
    cases hx : x.isHeld with
    | true => simp [State.freeRecord_held hx, funext (Lease.afterFree_held hx), hij, hval]
    | false => simp [State.freeRecord_pending hx, funext (Lease.afterFree_pending hx), hij, hval]

/-- The records after one is freed: the other ones, moved. -/
theorem State.freeRecord_leases_some {s : State} {i j : Slot} {x l : Lease} :
    (s.freeRecord (i, x)).leases[j] = some l ↔ i ≠ j ∧ ∃ k, s.leases[j] = some k ∧ x.afterFree k = l := by
  rw [State.freeRecord_leases]
  by_cases h : i = j <;> simp [h]

/-! ### What a revocation leaves unchanged -/

/-- The state without its lease records and its notices, the two tables that a revocation changes. -/
def State.besideLeases (s : State) : State :=
  { s with leases := Vector.replicate 16 none, notices := Vector.replicate 4 NoticeQueue.reset }

@[simp] theorem State.setLease_besideLeases (s : State) (i : Slot) (l : Option Lease) :
    (s.setLease i l).besideLeases = s.besideLeases := rfl
@[simp] theorem State.closeGap_besideLeases (s : State) (e : EntryIx) (k : Nat) :
    (s.closeGap e k).besideLeases = s.besideLeases := rfl
@[simp] theorem State.post_besideLeases (s : State) (p : Port) (k : NoticeKind) (e : Option EntryIx) (m : Option Seg)
    (tok : Byte) : (s.post p k e m tok).besideLeases = s.besideLeases := rfl

@[simp] theorem State.freeRecord_besideLeases (s : State) (x : Slot × Lease) :
    (s.freeRecord x).besideLeases = s.besideLeases := by
  unfold State.freeRecord
  dsimp only
  split <;> simp

@[simp] theorem State.freeRecord_notices (s : State) (x : Slot × Lease) : (s.freeRecord x).notices = s.notices := by
  unfold State.freeRecord
  dsimp only
  split <;> simp

@[simp] theorem State.revoke_besideLeases (s : State) (x : Slot × Lease) (c : RevokeCause) (m : Option Seg) :
    (s.revoke x c m).besideLeases = s.besideLeases := by
  simp [State.revoke]

@[simp] theorem State.revoke_leases (s : State) (x : Slot × Lease) (c : RevokeCause) (m : Option Seg) :
    (s.revoke x c m).leases = (s.freeRecord x).leases := rfl

@[simp] theorem State.revoke_notices (s : State) (x : Slot × Lease) (c : RevokeCause) (m : Option Seg) :
    (s.revoke x c m).notices =
      tabUpd s.notices x.2.port (NoticeQueue.store (.leaseRevoked c) (some x.2.entry) m x.2.token) := by
  simp [State.revoke]

/-! ### Every record on an entry cleared (R125, R126) -/

/-- `t` is `s` with every record that names `e` freed, and each port that had one told the cause, `held` for the HELD
record and `pend` for a request, with the record's token. -/
structure Cleared (s t : State) (e : EntryIx) (held pend : RevokeCause) (m : Option Seg) : Prop where
  leases : ∀ (i : Slot) (l : Lease), t.leases[i] = some l ↔ s.leases[i] = some l ∧ l.entry ≠ e
  told : ∀ (i : Slot) (l : Lease), s.leases[i] = some l → l.entry = e →
    t.notices[l.port] =
      (s.notices[l.port]).store (.leaseRevoked (if l.isHeld then held else pend)) (some e) m l.token
  untold : ∀ q : Port, (∀ (i : Slot) (l : Lease), s.leases[i] = some l → l.entry = e → l.port ≠ q) →
    t.notices[q] = s.notices[q]
  rest : t.besideLeases = s.besideLeases

/-- Without records on the entry nothing is to be done. -/
theorem Cleared.refl {s : State} {e : EntryIx} (h : ∀ (i : Slot) (l : Lease), s.leases[i] = some l → l.entry ≠ e)
    (held pend : RevokeCause) (m : Option Seg) : Cleared s s e held pend m where
  leases i l := ⟨fun hl => ⟨hl, h i l hl⟩, And.left⟩
  told i l hl he := absurd he (h i l hl)
  untold _ _ := rfl
  rest := rfl

/-- One record is revoked and the others are cleared after it; its port has no other record on the entry. -/
theorem Cleared.of_revoke {s t : State} {e : EntryIx} {held pend c : RevokeCause} {m : Option Seg} {i : Slot} {x : Lease}
    (hx : s.leases[i] = some x) (he : x.entry = e) (hc : c = if x.isHeld then held else pend)
    (hport : ∀ (j : Slot) (l : Lease), s.leases[j] = some l → l.entry = e → l.port = x.port → i = j)
    (h : Cleared (s.revoke (i, x) c m) t e held pend m) : Cleared s t e held pend m where
  leases j l := by
    rw [h.leases, State.revoke_leases, State.freeRecord_leases_some]
    constructor
    · rintro ⟨⟨-, k, hk, rfl⟩, hne⟩
      rw [(x.afterFree_same k).2.1] at hne
      rw [Lease.afterFree_other (he ▸ hne)]
      exact ⟨hk, hne⟩
    · rintro ⟨hl, hne⟩
      refine ⟨⟨?_, l, hl, Lease.afterFree_other (he ▸ hne)⟩, hne⟩
      rintro rfl
      rw [hx] at hl; cases hl
      exact hne he
  told j l hl hle := by
    by_cases hij : i = j
    · subst hij
      rw [hx] at hl; cases hl
      rw [h.untold x.port, State.revoke_notices, tabUpd_self, hc, he]
      intro j k hk hke hkp
      obtain ⟨hij, y, hy, rfl⟩ := State.freeRecord_leases_some.1 hk
      obtain ⟨hyp, hye, -, -⟩ := x.afterFree_same y
      exact hij (hport j y hy (hye ▸ hke) (hyp ▸ hkp))
    · obtain ⟨hp, hentry, hheld, htoken⟩ := x.afterFree_same l
      have hl' := h.told j (x.afterFree l) (State.freeRecord_leases_some.2 ⟨hij, l, hl, rfl⟩) (hentry.trans hle)
      have hne : x.port ≠ l.port := fun hp => hij (hport j l hl hle hp.symm)
      simp only [hp, hheld, htoken, State.revoke_notices, tabUpd_other _ _ _ _ hne] at hl'
      exact hl'
  untold q hq := by
    rw [h.untold q, State.revoke_notices, tabUpd_other _ _ _ _ (hq i x hx he)]
    intro j k hk hke
    obtain ⟨-, y, hy, rfl⟩ := State.freeRecord_leases_some.1 hk
    obtain ⟨hyp, hye, -, -⟩ := x.afterFree_same y
    exact hyp ▸ hq j y hy (hye ▸ hke)
  rest := h.rest.trans (by simp)

/-- The records on `e` are requests alone, of different ports, in the places 1 to `n` without a gap. -/
structure RequestsOnly (v : Vector (Option Lease) 16) (e : EntryIx) (n : Nat) : Prop where
  pending : ∀ (i : Slot) (l : Lease), v[i] = some l → l.entry = e → l.isHeld = false ∧ 1 ≤ l.order ∧ l.order ≤ n
  gapless : ∀ (i : Slot) (l : Lease), v[i] = some l → l.entry = e → l.order ≠ 1 →
    ∃ (j : Slot) (k : Lease), v[j] = some k ∧ k.entry = e ∧ k.order + 1 = l.order
  unique : ∀ (i j : Slot) (l k : Lease), v[i] = some l → v[j] = some k → l.entry = e → k.entry = e →
    l.port = k.port ∨ l.order = k.order → i = j

/-- A list without a first request is empty. -/
theorem RequestsOnly.empty {v : Vector (Option Lease) 16} {e : EntryIx} {n : Nat} (h : RequestsOnly v e n)
    (hfirst : ∀ (i : Slot) (l : Lease), v[i] = some l → l.entry = e → l.order ≠ 1) (i : Slot) (l : Lease)
    (hl : v[i] = some l) : l.entry ≠ e := by
  intro he
  generalize hk : l.order = k
  induction k generalizing i l with
  | zero => have := (h.pending i l hl he).2.1; omega
  | succ k ih =>
    obtain ⟨j, l', hl', he', ho⟩ := h.gapless i l hl he (hfirst i l hl he)
    exact ih j l' hl' he' (by omega)

/-- A request left after the first is freed was one place behind. -/
theorem RequestsOnly.behind_first {s : State} {e : EntryIx} {n : Nat} (h : RequestsOnly s.leases e n) {i j : Slot}
    {x l : Lease} (hx : s.leases[i] = some x) (he : x.entry = e) (ho : x.order = 1)
    (hl : (s.freeRecord (i, x)).leases[j] = some l) (hle : l.entry = e) :
    ∃ y, s.leases[j] = some y ∧ y.entry = e ∧ l.isHeld = false ∧ l.port = y.port ∧ 1 ≤ l.order ∧ l.order + 1 = y.order := by
  obtain ⟨hij, y, hy, rfl⟩ := State.freeRecord_leases_some.1 hl
  obtain ⟨hport, hentry, hheld, -⟩ := x.afterFree_same y
  have hye : y.entry = e := hentry ▸ hle
  obtain ⟨hyp, hy₁, -⟩ := h.pending j y hy hye
  have hne : y.order ≠ 1 := fun hy₁ => hij (h.unique i j x y hx hy he hye (.inr (ho.trans hy₁.symm)))
  have hord : (x.afterFree y).order = y.order - 1 := by
    rw [Lease.afterFree_pending (h.pending i x hx he).1, Lease.moveUp_order, ho, he, if_pos ⟨hyp, hye, by omega⟩]
  exact ⟨y, hy, hye, hheld.trans hyp, hport, by omega, by omega⟩

/-- The first request freed: those behind it stand in the places 1 to `n`. -/
theorem RequestsOnly.freeFirst {s : State} {e : EntryIx} {n : Nat} (h : RequestsOnly s.leases e (n + 1)) {i : Slot}
    {x : Lease} (hx : s.leases[i] = some x) (he : x.entry = e) (ho : x.order = 1) :
    RequestsOnly (s.freeRecord (i, x)).leases e n where
  pending j l hl hle := by
    obtain ⟨y, hy, hye, hheld, -, hl₁, hord⟩ := h.behind_first hx he ho hl hle
    obtain ⟨-, -, hy₂⟩ := h.pending j y hy hye
    exact ⟨hheld, hl₁, by omega⟩
  gapless j l hl hle hne := by
    obtain ⟨y, hy, hye, -, -, hl₁, hord⟩ := h.behind_first hx he ho hl hle
    obtain ⟨j', k, hk, hke, hko⟩ := h.gapless j y hy hye (by omega)
    have hij : i ≠ j' := by
      rintro rfl
      rw [hx] at hk; cases hk
      omega
    have hk' : (s.freeRecord (i, x)).leases[j'] = some (x.afterFree k) :=
      State.freeRecord_leases_some.2 ⟨hij, k, hk, rfl⟩
    have hke' : (x.afterFree k).entry = e := (x.afterFree_same k).2.1.trans hke
    obtain ⟨z, hz, -, -, -, -, hzo⟩ := h.behind_first hx he ho hk' hke'
    rw [hk] at hz; cases hz
    exact ⟨j', _, hk', hke', by omega⟩
  unique j j' l k hl hk hle hke hor := by
    obtain ⟨y, hy, hye, -, hport, -, hord⟩ := h.behind_first hx he ho hl hle
    obtain ⟨z, hz, hze, -, hport', -, hord'⟩ := h.behind_first hx he ho hk hke
    refine h.unique j j' y z hy hz hye hze (hor.imp (fun hp => ?_) fun hp => ?_)
    · rw [← hport, ← hport', hp]
    · omega

/-- No request is found at a place exactly when each one stands at another. -/
theorem State.pendingAt_none {s : State} {e : EntryIx} {k : Nat} : s.pendingAt e k = none ↔
    ∀ (i : Slot) (l : Lease), s.leases[i] = some l → l.entry = e → l.isHeld = false → l.order ≠ k := by
  unfold State.pendingAt
  rw [State.findLease_none]
  simp

/-- A list of requests is cleared from its head, each request moving the next one to place 1. -/
theorem State.cancelPending_cleared (e : EntryIx) (held pend : RevokeCause) (m : Option Seg) (n : Nat) (s : State)
    (h : RequestsOnly s.leases e n) : Cleared s (State.cancelPending e pend m n s) e held pend m := by
  induction n generalizing s with
  | zero => exact .refl (h.empty fun i l hl he => by obtain ⟨-, h₁, h₀⟩ := h.pending i l hl he; omega) held pend m
  | succ n ih =>
    unfold State.cancelPending
    split
    · rename_i x hx
      obtain ⟨i, x⟩ := x
      obtain ⟨hl, he, hp, ho⟩ := State.pendingAt_some hx
      refine .of_revoke hl he (by simp [hp]) (fun j l hj hje hport => ?_) (ih _ (h.freeFirst hl he ho))
      exact h.unique i j x l hl hj he hje (.inl hport.symm)
    · rename_i hnone
      exact .refl (h.empty fun i l hl he => State.pendingAt_none.1 hnone i l hl he (h.pending i l hl he).1) held pend m

/-- What R113 says of the records on the entry `e`. -/
structure EntryRecords (v : Vector (Option Lease) 16) (e : EntryIx) : Prop where
  unique : ∀ (i j : Slot) (l k : Lease), v[i] = some l → v[j] = some k → l.entry = e → k.entry = e →
    (l.isHeld = true ∧ k.isHeld = true ∨ l.port = k.port ∨ l.isHeld = false ∧ k.isHeld = false ∧ l.order = k.order) → i = j
  place : ∀ (i : Slot) (l : Lease), v[i] = some l → l.entry = e → l.isHeld = false → 1 ≤ l.order ∧ l.order ≤ 3
  behindHolder : ∀ (i : Slot) (l : Lease), v[i] = some l → l.entry = e → l.isHeld = false →
    ∃ (j : Slot) (k : Lease), v[j] = some k ∧ k.entry = e ∧ k.isHeld = true
  gapless : ∀ (i : Slot) (l : Lease), v[i] = some l → l.entry = e → l.isHeld = false → l.order ≠ 1 →
    ∃ (j : Slot) (k : Lease), v[j] = some k ∧ k.entry = e ∧ k.isHeld = false ∧ k.order + 1 = l.order

theorem LeaseLaw.entryRecords {s : State} (h : LeaseLaw s) (e : EntryIx) : EntryRecords s.leases e := by
  obtain ⟨hunique, hpending, -⟩ := h
  constructor
  · intro i j l k hl hk hle hke
    exact hunique i j l k hl hk (hle.trans hke.symm)
  all_goals
    rintro i l hl rfl hp
    obtain ⟨h₁, h₃, hholder, hgap⟩ := hpending i l hl hp
  · exact ⟨h₁, h₃⟩
  · exact hholder
  · exact hgap

/-- Behind a freed HELD record only requests are left. -/
theorem EntryRecords.freeHeld {s : State} {e : EntryIx} (h : EntryRecords s.leases e) {i : Slot} {x : Lease}
    (hx : s.leases[i] = some x) (he : x.entry = e) (hheld : x.isHeld = true) :
    RequestsOnly (s.freeRecord (i, x)).leases e 3 := by
  have kept {j : Slot} {l : Lease} : (s.freeRecord (i, x)).leases[j] = some l ↔ i ≠ j ∧ s.leases[j] = some l := by
    rw [State.freeRecord_leases_some]
    simp [Lease.afterFree_held hheld]
  have pending {j : Slot} {l : Lease} (hl : (s.freeRecord (i, x)).leases[j] = some l) (hle : l.entry = e) :
      l.isHeld = false := by
    by_contra hlh
    exact (kept.1 hl).1 (h.unique i j x l hx (kept.1 hl).2 he hle (.inl ⟨hheld, by simpa using hlh⟩))
  constructor
  · intro j l hl hle
    exact ⟨pending hl hle, h.place j l (kept.1 hl).2 hle (pending hl hle)⟩
  · intro j l hl hle hne
    obtain ⟨j', k, hk, hke, hkp, hko⟩ := h.gapless j l (kept.1 hl).2 hle (pending hl hle) hne
    refine ⟨j', k, kept.2 ⟨?_, hk⟩, hke, hko⟩
    rintro rfl
    rw [hx] at hk; cases hk
    simp [hheld] at hkp
  · intro j j' l k hl hk hle hke hor
    exact h.unique j j' l k (kept.1 hl).2 (kept.1 hk).2 hle hke
      (.inr (hor.imp_right fun ho => ⟨pending hl hle, pending hk hke, ho⟩))

/-- Without a HELD record an entry has no record (R113). -/
theorem EntryRecords.none_of_no_held {s : State} {e : EntryIx} (h : EntryRecords s.leases e) (hnone : s.heldOn e = none)
    (i : Slot) (l : Lease) (hl : s.leases[i] = some l) : l.entry ≠ e := by
  intro he
  have hp := State.heldOn_none.1 hnone
  obtain ⟨j, k, hk, hke, hkh⟩ := h.behindHolder i l hl he (hp i l hl he)
  simp [hp j k hk hke] at hkh

/-- Under R113 the records that name an entry are all freed, and each port that had one is told (R125, R126). -/
theorem State.clearEntry_cleared {s : State} {e : EntryIx} (h : EntryRecords s.leases e) (held pend : RevokeCause)
    (m : Option Seg) : Cleared s (s.clearEntry e held pend m) e held pend m := by
  unfold State.clearEntry State.revokeHeld
  cases hheld : s.heldOn e with
  | none =>
    have hfree := h.none_of_no_held hheld
    exact State.cancelPending_cleared e held pend m _ s
      ⟨fun i l hl he => absurd he (hfree i l hl), fun i l hl he => absurd he (hfree i l hl),
        fun i _ l _ hl _ he => absurd he (hfree i l hl)⟩
  | some x =>
    obtain ⟨i, x⟩ := x
    obtain ⟨hx, he, hxh⟩ := State.heldOn_some hheld
    refine .of_revoke hx he (by simp [hxh]) (fun j l hl hle hport => ?_)
      (State.cancelPending_cleared e held pend m _ _ (h.freeHeld hx he hxh))
    exact h.unique i j x l hx hl he hle (.inr (.inl hport.symm))

/-! ### DELR (R32) -/

theorem exec_delr {p : Port} {s : State} (hidle : s.ports[p].ctx = .idle) (hroute : s.rights[p].rights.route = true)
    (index : Byte) : exec (.delr p index) s = .next (s.cmdDelr p index) :=
  exec_row_permitted (c := .delr index) ⟨hidle, hroute⟩

theorem State.cmdDelr_free {s : State} {e : EntryIx} (h : s.directory[e].route = none) (p : Port) :
    s.cmdDelr p (entryByte e) = s.respond p .noEntry 0x11#8 [] := by
  have hr : s.route e = none := h
  simp only [State.cmdDelr, decodeEntry_entryByte, hr]
  rfl

theorem State.cmdDelr_installed {s : State} {e : EntryIx} {r : Route} (h : s.directory[e].route = some r) (p : Port) :
    s.cmdDelr p (entryByte e) =
      ((s.onEntry e (fun x => { x with route := none })).clearEntry e .routeRemoved .routeRemoved (some r.seg)).respond p .ok
        0x11#8 [entryByte e, s.directory[e].gen] := by
  have hr : s.route e = some r := h
  simp only [State.cmdDelr, decodeEntry_entryByte, hr]
  rfl

/-- Settles O19: under R113 the HELD record and the requests behind it, cancelled from the head, are all the records on the
entry, and each is of another port, so that each port's queue takes its own notice alone. -/
theorem delrRemovesEntry : Obligations.DelrRemovesEntry := by
  unfold Obligations.DelrRemovesEntry
  constructor
  · intro p index s hidle hroute hindex
    rw [exec_delr hidle hroute]
    simp only [State.cmdDelr, decodeEntry_none.2 hindex]
    rfl
  · intro p e s hidle hroute
    refine ⟨fun hfree => by rw [exec_delr hidle hroute, State.cmdDelr_free hfree], fun r hr hlaw => ?_⟩
    refine ⟨_, by rw [exec_delr hidle hroute, State.cmdDelr_installed hr], ?_⟩
    have hclear := State.clearEntry_cleared (s := s.onEntry e (fun x => { x with route := none })) (hlaw.entryRecords e)
      .routeRemoved .routeRemoved (some r.seg)
    have same {α : Type} (f : State → α) := congrArg f hclear.rest
    have hdirectory := same State.directory
    refine ⟨?_, fun f hf => ?_, hclear.leases, fun i l hl he => ?_, hclear.untold, State.respond_self .., fun q hq => ?_,
      same State.ports, ⟨same State.segs, same State.engines⟩, same State.defaults, same State.rights,
      same State.tokenCounter, same State.buffers, same State.adr, same State.admSel, same State.pending⟩
    · exact (congrArg (·[e]) hdirectory).trans (tabUpd_self ..)
    · exact (congrArg (·[f]) hdirectory).trans (tabUpd_other _ _ _ _ hf.symm)
    · exact (hclear.told i l hl he).trans (by rw [ite_self]; rfl)
    · exact (State.respond_other hq ..).trans (congrArg (·[q]) (same State.responses))

end Sys2Proof.Machine
end

section
/-! SUPPORT. The Admission Check (R44 to R51): what each of its steps decides, and its two uses, at arrival and at grant. -/

namespace Sys2Proof.Machine

/-! ### The steps of the check -/

/-- The lease step on an entry with a HELD record: only its holder passes (R45). -/
theorem State.leaseReason_held {s : State} {e : EntryIx} {i : Slot} {l : Lease} (h : s.heldOn e = some (i, l)) (p : Port)
    (mode : Mode) : s.leaseReason p e mode = if l.port = p then none else some .leasedElsewhere := by
  simp only [State.leaseReason, h]

/-- The mode step on an entry without a HELD record: only EXCLUSIVE refuses (R45). -/
theorem State.leaseReason_unheld {s : State} {e : EntryIx} (h : s.heldOn e = none) (p : Port) (mode : Mode) :
    s.leaseReason p e mode = if mode = .exclusive then some .leaseRequired else none := by
  simp only [State.leaseReason, h]
  cases mode <;> rfl

/-- Write protection comes before the lease and the mode (R44, R50). -/
theorem State.entryReason_eq (s : State) (p : Port) (d : Dir) (e : EntryIx) (r : Route) :
    s.entryReason p d e r =
      if d = .write ∧ hasPort r.wp p = true then some .writeProtected else s.leaseReason p e r.mode := by
  simp only [State.entryReason, Route.protects, Bool.and_eq_true, decide_eq_true_eq]

/-- An address is routed elsewhere exactly when an entry installed on the segment has it in its target range (R47). -/
theorem State.routedElsewhere_iff {s : State} {m : Seg} {a : Addr} : s.routedElsewhere m a = true ↔
    ∃ (e : EntryIx) (r : Route), s.route e = some r ∧ r.seg = m ∧ inRange r.tbase r.span a = true := by
  unfold State.routedElsewhere
  rw [List.any_eq_true]
  constructor
  · rintro ⟨e, -, he⟩
    cases hr : s.route e with
    | none => simp only [hr] at he; cases he
    | some r =>
      simp only [hr, Bool.and_eq_true, decide_eq_true_eq] at he
      exact ⟨e, r, hr, he⟩
  · rintro ⟨e, r, hr, hm, ha⟩
    exact ⟨e, List.mem_finRange e, by simp only [hr, hm, ha, decide_true, Bool.and_self]⟩

/-! ### The check at arrival (R44, R47, R48) -/

/-- Through an installed entry, the entry decides before the segment. -/
theorem State.checkAtArrival_entry {s : State} {e : EntryIx} {r : Route} (h : s.route e = some r) (p : Port) (d : Dir)
    (g : BitVec 8) (m : Seg) (x : Addr) : s.checkAtArrival p d { entry := some (e, g), seg := m, target := x } =
      (s.entryReason p d e r).or s.segs[m].state.reason := by
  simp only [State.checkAtArrival, h, Option.bind_some]
  cases s.entryReason p d e r <;> rfl

/-- Default-routed, an installed target range decides before the segment. -/
theorem State.checkAtArrival_default (s : State) (p : Port) (d : Dir) (m : Seg) (x : Addr) :
    s.checkAtArrival p d { entry := none, seg := m, target := x } =
      if s.routedElsewhere m x then some .routedElsewhere else s.segs[m].state.reason := rfl

/-! ### The check at grant (R50, R51) -/

/-- Through an entry still installed, a changed generation or a mask without the port decides before the entry's own steps. -/
theorem State.checkAtGrant_entry {s : State} {e : EntryIx} {r : Route} (h : s.route e = some r) (p : Port) (d : Dir)
    (g : BitVec 8) (m : Seg) (x : Addr) : s.checkAtGrant p d { entry := some (e, g), seg := m, target := x } =
      if s.directory[e].gen ≠ g ∨ hasPort r.vis p = false then some .routeGone else s.entryReason p d e r := by
  simp only [State.checkAtGrant, h, Bool.not_eq_true']
  by_cases hg : s.directory[e].gen = g
  · simp only [hg, ne_eq, not_true_eq_false, if_false, false_or]
  · simp only [hg, ne_eq, not_false_eq_true, if_true, true_or]

theorem State.checkAtGrant_free {s : State} {e : EntryIx} (h : s.route e = none) (p : Port) (d : Dir) (g : BitVec 8)
    (m : Seg) (x : Addr) : s.checkAtGrant p d { entry := some (e, g), seg := m, target := x } = some .routeGone := by
  simp only [State.checkAtGrant, h]

theorem State.checkAtGrant_default (s : State) (p : Port) (d : Dir) (m : Seg) (x : Addr) :
    s.checkAtGrant p d { entry := none, seg := m, target := x } =
      if s.routedElsewhere m x then some .routedElsewhere else none := rfl

/-- Settles O45: each check is its steps in order, and each step's reason is the one that the statement writes out. -/
theorem admissionDecidesInOrder : Obligations.AdmissionDecidesInOrder := by
  unfold Obligations.AdmissionDecidesInOrder
  intro p d m x s segment
  have hsegment : s.segs[m].state.reason = segment := by
    dsimp only [segment]
    cases s.segs[m].state <;> rfl
  refine ⟨fun e g r hr => ?_, fun e g hr => State.checkAtGrant_free hr p d g m x, fun helse => ?_, fun hnone => ?_⟩
  · intro lease entry
    have hlease : s.leaseReason p e r.mode = lease := by
      dsimp only [lease]
      cases hheld : s.heldOn e with
      | none => exact State.leaseReason_unheld hheld p r.mode
      | some held => exact State.leaseReason_held hheld p r.mode
    have hentry : s.entryReason p d e r = entry := by rw [State.entryReason_eq, hlease]
    rw [State.checkAtArrival_entry hr, State.checkAtGrant_entry hr, hentry, hsegment]
    exact ⟨rfl, rfl⟩
  · have hrouted : s.routedElsewhere m x = true := State.routedElsewhere_iff.2 helse
    rw [State.checkAtArrival_default, State.checkAtGrant_default, if_pos hrouted, if_pos hrouted]
    exact ⟨rfl, rfl⟩
  · have hfree : ¬ s.routedElsewhere m x = true := by
      rw [State.routedElsewhere_iff]
      rintro ⟨e, r, hr, hm, hx⟩
      exact absurd hx (by simp [hnone e r hr hm])
    rw [State.checkAtArrival_default, State.checkAtGrant_default, if_neg hfree, if_neg hfree, hsegment]
    exact ⟨rfl, rfl⟩

end Sys2Proof.Machine
end

section
/-! SUPPORT. The commands SCFG (R69, R70) and SSTA (R72), and a relay address on a port that holds no segment (R9, R58, R59). -/

namespace Sys2Proof.Machine

/-! ### SCFG (R70) -/

/-- An SCFG within the limits of R69 is read as its configuration. -/
theorem decodeScfg_bytes (m : Seg) (en sh : Bool) {w h : Byte} (hw : w ≠ 0#8) (h₅ : 5 ≤ h.toNat) (h₁₀₀ : h.toNat ≤ 100) :
    decodeScfg (segByte m) (flagByte en) (flagByte sh) w h =
      some (m, { enable := en, shared := sh, waitLimit := w.toNat, holdLimit := h.toNat }) := by
  simp [decodeScfg, hw, h₅, h₁₀₀]

/-- SCFG from its rights step on: the record configured, and the answer read from it. -/
theorem exec_scfg {p : Port} {s : State} (hidle : s.ports[p].ctx = .idle) (hright : s.rights[p].rights.segment = true)
    (m : Seg) (en sh : Bool) {w h : Byte} (hw : w ≠ 0#8) (h₅ : 5 ≤ h.toNat) (h₁₀₀ : h.toNat ≤ 100) {b : Arbiter}
    (hb : s.segs[m].configure { enable := en, shared := sh, waitLimit := w.toNat, holdLimit := h.toNat } = b) :
    exec (.scfg p (segByte m) (flagByte en) (flagByte sh) w h) s =
      .next ((s.onSeg m (fun _ => b)).respond p (if b.disablePending then .accepted else .ok) 0x30#8
        [segByte m, b.state.code, flagByte b.disablePending]) := by
  have hperform := exec_row_permitted (s := s) (p := p)
    (c := .scfg (segByte m) (flagByte en) (flagByte sh) w h) ⟨hidle, hright⟩
  refine hperform.trans (congrArg Host.Outcome.next ?_)
  simp only [State.perform, State.cmdScfg, decodeScfg_bytes m en sh hw h₅ h₁₀₀]
  rw [State.onSeg_congr (g := fun _ => b) hb, hb]
  rfl

/-- Settles O32, by the state of the segment. -/
theorem scfgConfiguresSegment : Obligations.ScfgConfiguresSegment := by
  unfold Obligations.ScfgConfiguresSegment
  intro p m en sh w h s hidle hright hw h₅ h₁₀₀ a a₁ run answer
  have hrun {b : Arbiter} {code : Byte} (hb : a.configure ⟨en, sh, w.toNat, h.toNat⟩ = b) (hcode : b.state.code = code) :
      run = answer b code := hcode ▸ exec_scfg hidle hright m en sh hw h₅ h₁₀₀ hb
  have hcode {st : SegState} (hst : a.state = st) : a₁.state.code = st.code := congrArg SegState.code hst
  refine ⟨fun hst hen => hrun ?_ (hcode hst), fun hst hen => hrun ?_ rfl, fun q hst => hrun ?_ (hcode hst),
    fun q hst => hrun ?_ (hcode hst), fun hst hen => hrun ?_ (hcode hst), fun hst hen => hrun ?_ rfl,
    fun hst hen => hrun ?_ (hcode hst), fun hst hen => hrun ?_ rfl⟩ <;>
  simp only [Arbiter.configure, a₁, *]

/-! ### SSTA (R72) -/

/-- The bits of the flags byte of SSTA (R161). -/
theorem segFlags_bits (a : Arbiter) (f : Bool) :
    (segFlags a f).getLsbD 0 = a.enable ∧ (segFlags a f).getLsbD 1 = a.shared ∧
      (segFlags a f).getLsbD 2 = a.disablePending ∧ (segFlags a f).getLsbD 3 = f ∧ (segFlags a f).toNat < 16 := by
  unfold segFlags
  generalize a.enable = b₀
  generalize a.shared = b₁
  generalize a.disablePending = b₂
  revert b₀ b₁ b₂ f
  decide

/-- SSTA needs no right. -/
theorem exec_ssta {p : Port} {s : State} (hidle : s.ports[p].ctx = .idle) (b : Byte) :
    exec (.ssta p b) s = .next (s.cmdSsta p b) :=
  exec_row_permitted (c := .ssta b) ⟨hidle, trivial⟩

/-- Settles O33: each byte of the payload is read from the record, the first three by the segment's state. -/
theorem sstaReportsSegment : Obligations.SstaReportsSegment := by
  unfold Obligations.SstaReportsSegment
  intro p s hidle
  constructor
  · intro m
    refine ⟨s.segs[m].state.code, portOrAbsent s.segs[m].state.holder, portOrAbsent s.segs[m].state.resume,
      segFlags s.segs[m] s.engines[m].foreignBusy, ?_, ?_, ?_, ?_, ?_, ?_, segFlags_bits _ _⟩
    · rw [exec_ssta hidle]
      simp only [State.cmdSsta, decodeSeg_segByte]
      rfl
    all_goals intros; simp only [*]; exact ⟨rfl, rfl, rfl⟩
  · intro b hb
    rw [exec_ssta hidle]
    simp only [State.cmdSsta, decodeSeg_none.2 hb]
    rfl

/-! ### A relay address (R58) -/

/-- An address byte on an IDLE or BROKEN port that expects it is classified (R4, R17). -/
theorem execAddressByte_classify {p : Port} {s : State} (hclock : s.ports[p].clockHeld = false)
    (hctx : s.ports[p].ctx = .idle ∨ ∃ t, s.ports[p].ctx = .broken t) (hexp : s.ports[p].addrExpected = true) (a : Addr)
    (d : Dir) : execAddressByte p a d s = .next (s.classify p a d) := by
  rcases hctx with hctx | ⟨t, hctx⟩ <;>
    simp only [execAddressByte, hclock, hctx, hexp, Bool.false_eq_true, if_false]

/-- An address outside 0x08 to 0x77 is reserved (R4). -/
theorem reservedAddr_false {a : Addr} (h₁ : 0x08 ≤ a.toNat) (h₂ : a.toNat ≤ 0x77) : reservedAddr a = false := by
  simp only [reservedAddr, Bool.or_eq_false_iff, decide_eq_false_iff_not]
  omega

/-- An address that resolves goes to the check at arrival and the arbiter (R4 case 1). -/
theorem State.classify_relay {s : State} {p : Port} {a : Addr} {n : Snapshot} (hres : reservedAddr a = false)
    (hown : a ≠ s.ownAddr) (hn : s.resolve p a = some n) (d : Dir) :
    s.classify p a d = s.relayArrival p { vaddr := a, dir := d, snap := n } := by
  simp [State.classify, hres, hown, hn]

theorem State.relayArrival_refused {s : State} {p : Port} {t : Transfer} {r : Reason}
    (h : s.checkAtArrival p t.dir t.snap = some r) : s.relayArrival p t = s.onPort p (HostPort.turnedAway r t) := by
  simp only [State.relayArrival, h, State.refuse_eq]

theorem State.relayArrival_accepted {s : State} {p : Port} {t : Transfer}
    (h : s.checkAtArrival p t.dir t.snap = none) : s.relayArrival p t = s.arrive p t := by
  simp only [State.relayArrival, h]

/-- The wait timer started and the segment granted, as one change of each table (R58, R59). -/
theorem State.grant_startWait (s : State) (m : Seg) (p : Port) (t : Transfer) :
    (s.startWait m p).grant m p t =
      ((s.onSeg m (fun b => { b with state := .active p, waits := b.waits.set p (Timer.start b.waitLimit) })).onPort p
        (HostPort.stretching (.addressing t))).onEngine m (Engine.order p (some (t.snap.target, t.dir)) s.segs[m].shared) := by
  have htarget : (((s.startWait m p).setSegState m (.active p)).onPort p (HostPort.enter (.addressing t))).targetOf p =
      some (t.snap.target, t.dir) := by
    simp [State.targetOf, HostPort.enter, Ctx.transfer?]
  have hshared : ((s.startWait m p).setSegState m (.active p)).segs[m].shared = s.segs[m].shared := by simp
  simp only [State.grant, State.orderPhase, htarget, State.onPort_segs, hshared]
  simp only [State.startWait, State.setSegState, State.onSeg_onSeg]
  rfl

/-- The wait timer started and the port queued, as one change of each table (R58, R59). -/
theorem State.enqueue_startWait (s : State) (m : Seg) (p : Port) (t : Transfer) :
    (s.startWait m p).enqueue m p t =
      (s.onSeg m (fun b => { b with queue := b.queue ++ [p], waits := b.waits.set p (Timer.start b.waitLimit) })).onPort p
        (HostPort.stretching (.waiting t)) := by
  simp only [State.enqueue, State.startWait, State.onSeg_onSeg]
  rfl

/-- Settles O46, by the answer of the check at arrival and then the state of the segment. -/
theorem relayAddressOutcomes : Obligations.RelayAddressOutcomes := by
  unfold Obligations.RelayAddressOutcomes
  intro p a d n s hclock hctx hexp h₁ h₂ hown hn t m run timed
  have hrun : run = .next (s.relayArrival p t) :=
    (execAddressByte_classify hclock hctx hexp a d).trans
      (congrArg Host.Outcome.next (State.classify_relay (reservedAddr_false h₁ h₂) hown hn d))
  refine ⟨fun r hr => ?_, fun hnone => ?_⟩
  · rw [hrun, State.relayArrival_refused hr]
  rw [hrun, State.relayArrival_accepted hnone]
  refine ⟨fun hidle => ?_, fun hqueued => ?_, fun q hrec hfull => ?_⟩
  · rw [State.arrive_idle hidle, State.grant_startWait]
    rfl
  · have henqueue : s.arrive p t = (s.startWait m p).enqueue m p t := by
      rcases hqueued with ⟨h, hactive⟩ | ⟨⟨q, hrec⟩, hroom⟩
      · exact State.arrive_active hactive
      · rw [State.arrive_recovering hrec, if_pos hroom]
    rw [henqueue, State.enqueue_startWait]
    rfl
  · rw [State.arrive_recovering hrec, if_neg (Nat.not_lt.2 hfull), State.refuse_eq]

end Sys2Proof.Machine
end

section
/-! SUPPORT. The law of the relay path, taken apart: what a port is to one segment (its seat), what R56 and R57 say of an
arbiter and those seats, and what R75 says of an engine by what it is there for (its duty). -/

namespace Sys2Proof.Machine

/-! ### Seats -/

/-- What a port is to one segment: nothing, queued in WAITING, its holder or resume port in ADDRESSING with the target its
snapshot gives, or its holder in RELAY_WRITE or RELAY_READ. -/
inductive Seat where
  | away
  | waiting
  | addressing (x : Addr × Dir)
  | writing (inHand : Bool)
  | reading (inHand closed : Bool)

/-- The seat of a port at segment `m`. -/
def HostPort.seat (m : Seg) (h : HostPort) : Seat :=
  match h.ctx with
  | .waiting t => if t.snap.seg = m then .waiting else .away
  | .addressing t => if t.snap.seg = m then .addressing (t.snap.target, t.dir) else .away
  | .relayWrite t => if t.snap.seg = m then .writing h.byteInHand else .away
  | .relayRead t => if t.snap.seg = m then .reading h.byteInHand h.readClosed else .away
  | _ => .away

/-- The seats of the four ports at segment `m`. -/
def State.seats (s : State) (m : Seg) : Port → Seat := fun p => s.ports[p].seat m

/-- The wait timer of a port with this seat runs (R59). -/
def Seat.timed : Seat → Bool
  | .waiting => true
  | .addressing _ => true
  | _ => false

/-- R56 for one port: the holder of an ACTIVE segment is in ADDRESSING or relays, the resume port of a RECOVERING one is in
ADDRESSING, and no other port has such a seat. -/
def SegState.Allows (st : SegState) (p : Port) : Seat → Prop
  | .away => st ≠ .active p ∧ st ≠ .recovering (some p)
  | .waiting => st ≠ .active p ∧ st ≠ .recovering (some p)
  | .addressing _ => st = .active p ∨ st = .recovering (some p)
  | .writing _ => st = .active p
  | .reading .. => st = .active p

theorem HostPort.waitsAt_iff (h : HostPort) (m : Seg) : h.ctx.waitsAt m = true ↔ h.seat m = .waiting := by
  unfold Ctx.waitsAt HostPort.seat
  cases h.ctx <;> grind

/-- The seat is that of a port in ADDRESSING. -/
def Seat.addresses : Seat → Bool
  | .addressing _ => true
  | _ => false

/-- The seat is that of a port in RELAY_WRITE or RELAY_READ. -/
def Seat.relays : Seat → Bool
  | .writing _ => true
  | .reading .. => true
  | _ => false

theorem HostPort.addressesAt_eq (h : HostPort) (m : Seg) : h.ctx.addressesAt m = (h.seat m).addresses := by
  unfold Ctx.addressesAt HostPort.seat Seat.addresses
  cases h.ctx <;> grind

theorem HostPort.relaysAt_eq (h : HostPort) (m : Seg) : h.ctx.relaysAt m = (h.seat m).relays := by
  unfold Ctx.relaysAt HostPort.seat Seat.relays
  cases h.ctx <;> grind

theorem HostPort.timed_seat (h : HostPort) (m : Seg) :
    (h.seat m).timed = (h.ctx.waitsAt m || h.ctx.addressesAt m) := by
  unfold Ctx.waitsAt Ctx.addressesAt HostPort.seat Seat.timed
  cases h.ctx <;> grind

/-- A port has a seat at one segment at most. -/
theorem HostPort.seat_elsewhere {h : HostPort} {m k : Seg} (hm : h.seat m ≠ .away) (hk : k ≠ m) : h.seat k = .away := by
  unfold HostPort.seat at hm ⊢
  cases hc : h.ctx <;> grind

/-! ### Arbiters (R56, R57) -/

/-- R57 and R59: the queue holds the ports in WAITING, once each, and exactly the seats that wait are timed. -/
structure Arbiter.QueueFits (a : Arbiter) (seat : Port → Seat) : Prop where
  queued : ∀ p, p ∈ a.queue ↔ seat p = .waiting
  nodup : a.queue.Nodup
  short : a.queue.length ≤ 3
  timed : ∀ p : Port, a.waits[p].isRunning = (seat p).timed

/-- The limits and counts of a segment record (R55, R69). -/
def Arbiter.Bounded (a : Arbiter) : Prop :=
  1 ≤ a.waitLimit ∧ a.waitLimit ≤ 255 ∧ 5 ≤ a.holdLimit ∧ a.holdLimit ≤ 100 ∧ a.lossCount ≤ 65535 ∧ a.recoveryCount ≤ 65535

/-- R55 and R70: without a transfer and a recovery nobody waits, and a disable is pending exactly
when one was asked for and has not been done. -/
structure Arbiter.Configured (a : Arbiter) : Prop where
  still : a.state = .idle ∨ a.state = .disabled ∨ a.state = .fault → a.queue = [] ∧ a.disablePending = false
  off : a.state = .disabled → a.enable = false
  on : a.state ≠ .disabled → a.disablePending = !a.enable

/-- R56 and R57 for an arbiter and the seats at its segment. -/
structure Arbiter.Fits (a : Arbiter) (seat : Port → Seat) : Prop where
  queue : a.QueueFits seat
  held : ∀ p, a.state.Allows p (seat p)
  config : a.Configured
  bounded : a.Bounded

theorem segLawful_iff (s : State) (m : Seg) : SegLawful s m ↔ s.segs[m].Fits (s.seats m) := by
  have hallows : (∀ p : Port, s.segs[m].state.Allows p (s.seats m p)) ↔
      (∀ p : Port, s.ports[p].ctx.relaysAt m = true → s.segs[m].state = .active p) ∧
      (∀ p : Port, s.ports[p].ctx.addressesAt m = true → s.segs[m].state = .active p ∨ s.segs[m].state = .recovering (some p)) ∧
      (∀ p : Port, s.segs[m].state = .active p → s.ports[p].ctx.relaysAt m = true ∨ s.ports[p].ctx.addressesAt m = true) ∧
      (∀ p : Port, s.segs[m].state = .recovering (some p) → s.ports[p].ctx.addressesAt m = true) := by
    rw [← forall_and, ← forall_and, ← forall_and]
    refine forall_congr' fun p => ?_
    rw [HostPort.relaysAt_eq, HostPort.addressesAt_eq]
    unfold State.seats
    cases s.ports[p].seat m <;> simp only [SegState.Allows, Seat.relays, Seat.addresses] <;> grind
  unfold SegLawful
  dsimp only
  simp only [HostPort.waitsAt_iff, ← HostPort.timed_seat]
  constructor
  · rintro ⟨h₁, h₂, h₃, h₄, h₅, h₆, h₇, h₈, h₉, h₁₀, h₁₁, w₁, w₂, g₁, g₂, l, r⟩
    exact ⟨⟨h₁, h₂, h₃, h₁₁⟩, hallows.2 ⟨h₄, h₅, h₆, h₇⟩, ⟨h₈, h₉, h₁₀⟩, ⟨w₁, w₂, g₁, g₂, l, r⟩⟩
  · rintro ⟨⟨h₁, h₂, h₃, h₁₁⟩, h, ⟨h₈, h₉, h₁₀⟩, ⟨w₁, w₂, g₁, g₂, l, r⟩⟩
    obtain ⟨h₄, h₅, h₆, h₇⟩ := hallows.1 h
    exact ⟨h₁, h₂, h₃, h₄, h₅, h₆, h₇, h₈, h₉, h₁₀, h₁₁, w₁, w₂, g₁, g₂, l, r⟩

/-! ### Engines (R75) -/

/-- What an engine is there for: nobody, on a segment without holder that works or that is in FAULT; nobody any more, its port
having just left; a recovery; or a port with the seat it has at the segment. -/
inductive Duty where
  | free
  | down
  | released
  | recovering
  | serving (p : Port) (x : Seat)

/-- The duty that a segment state and the seats at the segment give the engine. -/
def SegState.duty (seat : Port → Seat) : SegState → Duty
  | .idle => .free
  | .disabled => .free
  | .fault => .down
  | .recovering _ => .recovering
  | .active p => .serving p (seat p)

/-- The closing row of R75: the last byte of a transfer that was given up is being clocked. -/
def Engine.ClosingRow (e : Engine) : Prop :=
  e.activity = .clocking ∧ e.busOwned = true ∧ (e.state = .address ∨ e.state = .writing ∨ e.state = .reading) ∧
    (e.discarding = true → e.closing = false ∧ e.state = .reading)

/-- The QUIET row of R75. -/
def Engine.QuietRow (e : Engine) : Prop :=
  e.state = .quiet ∧ e.target = none ∧ e.busOwned = false ∧ e.activity = .none

/-- The STOPPING row of R75. -/
def Engine.StoppingRow (e : Engine) : Prop := e.state = .stopping ∧ e.activity = .none ∧ e.busOwned = true

/-- The rows of R75 by the engine's duty. -/
def Engine.Row (e : Engine) : Duty → Prop
  | .free => e.served = none ∧ if e.isClosing then e.ClosingRow else e.QuietRow ∨ e.StoppingRow
  | .down => e.served = none ∧ e.isClosing = false ∧ e.QuietRow
  | .released => e.served = none ∧
      if e.isClosing then e.ClosingRow else e.QuietRow ∨ e.StoppingRow ∨ e.state = .starting ∧ e.activity = .none
  | .recovering =>
    e.served = none ∧ e.isClosing = false ∧ e.state = .recovering ∧ e.target = none ∧ e.busOwned = true ∧
      e.activity = .none ∧ e.PulsesLawful
  | .serving p (.addressing x) => e.served = some p ∧
      if e.isClosing then e.ClosingRow
      else e.StoppingRow ∨ e.state = .starting ∧ e.activity = .none ∧ e.target = some x ∨
        e.state = .address ∧ e.activity = .clocking ∧ e.busOwned = true ∧ e.target = some x
  | .serving p (.writing inHand) =>
    e.served = some p ∧ e.isClosing = false ∧ e.state = .writing ∧ e.busOwned = true ∧ e.activity ≠ .slotOpen ∧
      (e.activity = .clocking ↔ inHand = true)
  | .serving p (.reading inHand closed) =>
    e.served = some p ∧ e.isClosing = false ∧ e.state = .reading ∧ e.busOwned = true ∧
      (e.activity = .clocking ↔ inHand = true) ∧ (e.activity = .none ↔ closed = true)
  | .serving _ _ => False

/-- R75 for an engine by its duty, with R94 for its hold timer and R99 for its retry count. -/
structure Engine.Fits (e : Engine) (d : Duty) : Prop where
  row : e.Row d
  hold : e.HoldLawful
  tries : e.retry ≤ 3
  fresh : e.awaitsStart = true → e.retry ≤ 2

/-! ### R75 by seats -/

theorem State.seats_waiting {s : State} {m : Seg} {p : Port} :
    s.seats m p = .waiting ↔ ∃ t, s.ports[p].ctx = .waiting t ∧ t.snap.seg = m := by
  unfold State.seats HostPort.seat
  cases s.ports[p].ctx <;> grind

theorem State.seats_addressing {s : State} {m : Seg} {p : Port} {x : Addr × Dir} :
    s.seats m p = .addressing x ↔
      ∃ t, s.ports[p].ctx = .addressing t ∧ t.snap.seg = m ∧ (t.snap.target, t.dir) = x := by
  unfold State.seats HostPort.seat
  cases s.ports[p].ctx <;> grind

theorem State.seats_writing {s : State} {m : Seg} {p : Port} {b : Bool} :
    s.seats m p = .writing b ↔ ∃ t, s.ports[p].ctx = .relayWrite t ∧ t.snap.seg = m ∧ s.ports[p].byteInHand = b := by
  unfold State.seats HostPort.seat
  cases s.ports[p].ctx <;> grind

theorem State.seats_reading {s : State} {m : Seg} {p : Port} {b c : Bool} :
    s.seats m p = .reading b c ↔ ∃ t, s.ports[p].ctx = .relayRead t ∧ t.snap.seg = m ∧ s.ports[p].byteInHand = b ∧
      s.ports[p].readClosed = c := by
  unfold State.seats HostPort.seat
  cases s.ports[p].ctx <;> grind

/-- The target that an engine takes for a port in ADDRESSING (R76). -/
theorem State.targetOf_addressing {s : State} {m : Seg} {p : Port} {x : Addr × Dir} (h : s.seats m p = .addressing x) :
    s.targetOf p = some x := by
  obtain ⟨t, ht, -, rfl⟩ := State.seats_addressing.1 h
  simp only [State.targetOf, ht, Ctx.transfer?, Option.map_some]

/-- The duty of the engine of segment `m`. -/
def State.duty (s : State) (m : Seg) : Duty := s.segs[m].state.duty (s.seats m)

section
variable {st : SegState} {seat : Port → Seat}

theorem SegState.duty_free : st.duty seat = .free ↔ st = .idle ∨ st = .disabled := by
  cases st <;> simp [SegState.duty]

theorem SegState.duty_down : st.duty seat = .down ↔ st = .fault := by
  cases st <;> simp [SegState.duty]

theorem SegState.duty_recovering : st.duty seat = .recovering ↔ ∃ r, st = .recovering r := by
  cases st <;> simp [SegState.duty]

theorem SegState.duty_serving {p : Port} {x : Seat} : st.duty seat = .serving p x ↔ st = .active p ∧ seat p = x := by
  cases st <;> simp [SegState.duty]
  rintro rfl
  rfl

theorem SegState.duty_released : st.duty seat ≠ .released := by
  cases st <;> simp [SegState.duty]

theorem SegState.duty_writing (h : ∀ p, st.Allows p (seat p)) {p : Port} {b : Bool} :
    st.duty seat = .serving p (.writing b) ↔ seat p = .writing b := by
  rw [SegState.duty_serving, and_iff_right_iff_imp]
  intro hx
  have hp := h p
  rwa [hx] at hp

theorem SegState.duty_reading (h : ∀ p, st.Allows p (seat p)) {p : Port} {b c : Bool} :
    st.duty seat = .serving p (.reading b c) ↔ seat p = .reading b c := by
  rw [SegState.duty_serving, and_iff_right_iff_imp]
  intro hx
  have hp := h p
  rwa [hx] at hp

end

theorem servesAddressing_iff {s : State} {m : Seg} : ServesAddressing s m ↔
    ∃ p x, s.engines[m].served = some p ∧ s.duty m = .serving p (.addressing x) := by
  unfold ServesAddressing State.duty
  refine exists_congr fun p => ?_
  simp only [HostPort.addressesAt_eq, SegState.duty_serving]
  unfold State.seats
  cases s.ports[p].seat m <;> simp [Seat.addresses]

theorem servesNobody_iff {s : State} {m : Seg} :
    ServesNobody s m ↔ s.engines[m].served = none ∧ s.duty m = .free := by
  unfold ServesNobody State.duty
  rw [SegState.duty_free]

/-- The rows of R75 by the engine's state, with the duty in the place of the segment state and the contexts. -/
theorem engineRow_iff {s : State} {m : Seg} (h : ∀ p, s.segs[m].state.Allows p (s.seats m p)) :
    EngineRow s m ↔
    (match s.engines[m].state with
    | .quiet => s.engines[m].served = none ∧ s.engines[m].QuietRow ∧ (s.duty m = .free ∨ s.duty m = .down)
    | .starting => s.engines[m].activity = .none ∧ ∃ p x, s.engines[m].served = some p ∧
        s.duty m = .serving p (.addressing x) ∧ s.engines[m].target = some x
    | .address => s.engines[m].activity = .clocking ∧ s.engines[m].busOwned = true ∧ ∃ p x, s.engines[m].served = some p ∧
        s.duty m = .serving p (.addressing x) ∧ s.engines[m].target = some x
    | .writing => s.engines[m].busOwned = true ∧ s.engines[m].activity ≠ .slotOpen ∧ ∃ p b, s.engines[m].served = some p ∧
        s.duty m = .serving p (.writing b) ∧ (s.engines[m].activity = .clocking ↔ b = true)
    | .reading => s.engines[m].busOwned = true ∧ ∃ p b c, s.engines[m].served = some p ∧
        s.duty m = .serving p (.reading b c) ∧ (s.engines[m].activity = .clocking ↔ b = true) ∧
        (s.engines[m].activity = .none ↔ c = true)
    | .stopping => (ServesAddressing s m ∨ ServesNobody s m) ∧ s.engines[m].StoppingRow
    | .recovering => s.engines[m].served = none ∧ s.engines[m].target = none ∧ s.engines[m].busOwned = true ∧
        s.engines[m].activity = .none ∧ s.duty m = .recovering ∧ s.engines[m].PulsesLawful) := by
  have htarget {p x} (hp : s.engines[m].served = some p) (hx : s.duty m = .serving p (.addressing x)) :
      s.engines[m].served.bind s.targetOf = some x := by
    rw [hp]
    exact State.targetOf_addressing (SegState.duty_serving.1 hx).2
  have hquiet : s.duty m = .free ∨ s.duty m = .down ↔
      s.segs[m].state = .idle ∨ s.segs[m].state = .disabled ∨ s.segs[m].state = .fault := by
    simp only [State.duty, SegState.duty_free, SegState.duty_down, or_assoc]
  have hrecovering : s.duty m = .recovering ↔ ∃ r, s.segs[m].state = .recovering r := SegState.duty_recovering
  have hwriting (p b) : s.duty m = .serving p (.writing b) ↔
      ∃ t, s.ports[p].ctx = .relayWrite t ∧ t.snap.seg = m ∧ s.ports[p].byteInHand = b := by
    rw [← State.seats_writing, State.duty, SegState.duty_writing h]
  have hreading (p b c) : s.duty m = .serving p (.reading b c) ↔ ∃ t, s.ports[p].ctx = .relayRead t ∧ t.snap.seg = m ∧
      s.ports[p].byteInHand = b ∧ s.ports[p].readClosed = c := by
    rw [← State.seats_reading, State.duty, SegState.duty_reading h]
  unfold EngineRow Engine.QuietRow Engine.StoppingRow
  dsimp only
  rw [servesAddressing_iff, hquiet, hrecovering]
  simp only [hwriting, hreading]
  cases s.engines[m].state <;> grind

/-- R75 of a segment that keeps R56 says that its engine fits the duty it has there. -/
theorem engLawful_iff {s : State} {m : Seg} (h : ∀ p, s.segs[m].state.Allows p (s.seats m p)) :
    EngLawful s m ↔ s.engines[m].Fits (s.duty m) := by
  have hfault : s.segs[m].state = .fault ↔ s.duty m = .down := SegState.duty_down.symm
  have hrecovering : (∃ r, s.segs[m].state = .recovering r) ↔ s.duty m = .recovering := SegState.duty_recovering.symm
  have hreleased : s.duty m ≠ .released := SegState.duty_released
  have hseat {p x} (hd : s.duty m = .serving p x) : x ≠ .away ∧ x ≠ .waiting := by
    obtain ⟨hst, rfl⟩ := SegState.duty_serving.1 hd
    have hp := h p
    rw [hst] at hp
    cases hx : s.seats m p <;> simp [hx, SegState.Allows] at hp ⊢
  unfold EngLawful
  dsimp only
  rw [engineRow_iff h, servesAddressing_iff, servesNobody_iff, hfault, hrecovering]
  generalize s.engines[m] = e
  generalize s.duty m = d at *
  constructor
  · rintro ⟨hrow, hrec, hfault, hhold, htries, hfresh⟩
    refine ⟨?_, hhold, htries, hfresh⟩
    unfold Engine.QuietRow Engine.StoppingRow at hrow
    unfold Engine.Row Engine.ClosingRow Engine.QuietRow Engine.StoppingRow
    cases d with
    | serving p x => cases x <;> grind
    | _ => grind
  · rintro ⟨hrow, hhold, htries, hfresh⟩
    unfold Engine.Row Engine.ClosingRow Engine.QuietRow Engine.StoppingRow at hrow
    unfold Engine.QuietRow Engine.StoppingRow
    cases d with
    | serving p x => cases x <;> grind
    | _ => grind

end Sys2Proof.Machine
end

section
/-! SUPPORT. What each change of an engine does to its law (R75): the duty it fits before and after. -/

namespace Sys2Proof.Machine

/-! ### The hold timer (R94) -/

/-- The engine needs its clock high in STARTING, in STOPPING, in a recovery, and while a byte is clocking (R94). -/
theorem Engine.watches_clock (e : Engine) : e.watches .clock = true ↔
    e.state = .starting ∨ e.state = .stopping ∨ e.state = .recovering ∨ e.state ≠ .quiet ∧ e.activity = .clocking := by
  unfold Engine.watches
  cases hs : e.state <;> simp

/-- R94 and R105, with the states in which the clock is needed high. -/
theorem Engine.holdLawful_iff (e : Engine) : e.HoldLawful ↔
    (e.hold.clock.isRunning = true → e.state = .starting ∨ e.state = .stopping ∨ e.state = .recovering ∨
      e.state ≠ .quiet ∧ e.activity = .clocking) ∧
    (e.hold.data.isRunning = true → e.state = .starting ∨ e.state = .stopping ∨ e.state = .recovering ∧ e.recStep = .stop) ∧
    (e.state = .recovering → e.recStep = .pulse → e.hold = .stopped) := by
  unfold Engine.HoldLawful
  rw [Engine.watches_clock]

theorem Engine.holdLawful_stopped {e : Engine} (h : e.hold = .stopped) : e.HoldLawful := by
  rw [Engine.holdLawful_iff, h]
  exact ⟨fun h => Bool.noConfusion h, fun h => Bool.noConfusion h, fun _ _ => rfl⟩

/-! ### Orders and ends of service -/

/-- An engine that nobody uses can take an order, and can be settled. -/
theorem Engine.Fits.released {e : Engine} (h : e.Fits .free) : e.Fits .released := by
  obtain ⟨⟨hserved, hrow⟩, hhold, htries, hfresh⟩ := h
  exact ⟨⟨hserved, by grind⟩, hhold, htries, hfresh⟩

/-- An engine in QUIET serves nobody (R91 to R93, R99, R100, R106, R107). -/
theorem Engine.toQuiet_fits {e : Engine} {d : Duty} (h : e.retry ≤ 3) (hd : d = .free ∨ d = .released ∨ d = .down) :
    e.toQuiet.Fits d := by
  refine ⟨?_, Engine.holdLawful_stopped rfl, h, fun h => Bool.noConfusion h⟩
  obtain rfl | rfl | rfl := hd
  · exact ⟨rfl, .inl ⟨rfl, rfl, rfl, rfl⟩⟩
  · exact ⟨rfl, .inl ⟨rfl, rfl, rfl, rfl⟩⟩
  · exact ⟨rfl, rfl, rfl, rfl, rfl, rfl⟩

/-- An engine fit for a segment in FAULT is fit for one that works again (R70). -/
theorem Engine.Fits.free_of_down {e : Engine} (h : e.Fits .down) : e.Fits .free := by
  obtain ⟨⟨hserved, hclosing, hquiet⟩, hhold, htries, hfresh⟩ := h
  exact ⟨⟨hserved, by rw [hclosing]; exact .inl hquiet⟩, hhold, htries, hfresh⟩

/-- What an engine drove last, and what it knows of foreign masters, are outside R75. -/
theorem Engine.Fits.foreign {e : Engine} {d : Duty} (h : e.Fits d) (busy : Bool) (acts : List BusAct) :
    ({ e with foreignBusy := busy, bus := acts }).Fits d :=
  ⟨h.row, h.hold, h.tries, h.fresh⟩

/-- An engine whose port has left takes the order of an address phase (R76). -/
theorem Engine.Fits.order {e : Engine} (h : e.Fits .released) (p : Port) (x : Addr × Dir) (shared : Bool) :
    (e.order p (some x) shared).Fits (.serving p (.addressing x)) := by
  obtain ⟨hrow, hhold, htries, hfresh⟩ := h
  rw [Engine.holdLawful_iff] at hhold
  simp only [Engine.Row, Engine.ClosingRow, Engine.QuietRow, Engine.StoppingRow, Engine.isClosing] at hrow
  constructor <;> simp only [Engine.order, Engine.enterStarting, Engine.Row, Engine.ClosingRow, Engine.StoppingRow,
    Engine.isClosing, Engine.holdLawful_iff] <;> grind

/-- A line check left without a port is given up (R93). -/
theorem Engine.Fits.settle {e : Engine} (h : e.Fits .released) : e.settle.Fits .free := by
  have hserved : e.served = none := h.row.1
  by_cases hs : e.state = .starting
  · have hsettle : e.settle = e.toQuiet := by simp only [Engine.settle, hs, hserved]
    exact hsettle ▸ Engine.toQuiet_fits h.tries (.inl rfl)
  · have hsettle : e.settle = e := by grind [Engine.settle]
    rw [hsettle]
    exact ⟨⟨hserved, by grind [h.row.2]⟩, h.hold, h.tries, h.fresh⟩

theorem Engine.Fits.served {e : Engine} {p : Port} {x : Seat} (h : e.Fits (.serving p x)) : e.served = some p := by
  obtain ⟨hrow, -⟩ := h
  cases x <;> grind [Engine.Row]

/-- An engine that serves a port has nothing to settle. -/
theorem Engine.Fits.settle_serving {e : Engine} {p : Port} {x : Seat} (h : e.Fits (.serving p x)) : e.settle = e := by
  grind [Engine.settle, h.served]

/-- An end of service withdraws the port and keeps the retry count and the hold timer. -/
theorem Engine.endService_frame (e : Engine) : e.endService.served = none ∧ e.endService.retry = e.retry ∧
    e.endService.hold = e.hold ∧ (e.endService.state = .starting → e.state = .starting) := by
  unfold Engine.endService Engine.driveStop
  dsimp only
  repeat' split
  all_goals simp [*]

/-- The port leaves, and the engine ends the downstream transfer as its state asks (R82, R86, R89, R90, R93). -/
theorem Engine.Fits.endService {e : Engine} {p : Port} {x : Seat} (h : e.Fits (.serving p x)) :
    e.endService.Fits .released := by
  obtain ⟨hrow, hhold, htries, hfresh⟩ := h
  obtain ⟨hserved, hretry, hheld, hstarting⟩ := e.endService_frame
  rw [Engine.holdLawful_iff] at hhold
  refine ⟨⟨hserved, ?_⟩, ?_, hretry ▸ htries, ?_⟩
  · cases x <;>
    simp only [Engine.Row, Engine.ClosingRow, Engine.StoppingRow, Engine.isClosing] at hrow <;>
    simp only [Engine.endService, Engine.driveStop, Engine.ClosingRow,
      Engine.StoppingRow, Engine.QuietRow, Engine.isClosing] <;> grind
  · rw [Engine.holdLawful_iff, hheld]
    cases x <;>
    simp only [Engine.Row, Engine.ClosingRow, Engine.StoppingRow, Engine.isClosing] at hrow <;>
    simp only [Engine.endService, Engine.driveStop, Engine.isClosing] <;> grind
  · simp only [Engine.awaitsStart, hserved, hretry] at hfresh ⊢
    grind

/-- The target leaves its address unacknowledged (R80). -/
theorem Engine.Fits.nackStop {e : Engine} {p : Port} {x : Addr × Dir} (h : e.Fits (.serving p (.addressing x)))
    (hc : e.clocks .address = true) : e.nackStop.Fits .released := by
  obtain ⟨hrow, hhold, htries, hfresh⟩ := h
  simp only [Engine.clocks, Engine.isClosing] at hc
  simp only [Engine.Row, Engine.ClosingRow, Engine.StoppingRow, Engine.isClosing] at hrow
  constructor <;> simp only [Engine.nackStop, Engine.driveStop, Engine.awaitsStart, Engine.Row, Engine.ClosingRow,
    Engine.StoppingRow, Engine.QuietRow, Engine.isClosing, Engine.holdLawful_stopped] <;> grind

/-! ### The address phase and bytes -/

/-- A closing engine is there for nobody, or for a port in ADDRESSING (R75). -/
theorem Engine.Fits.closing {e : Engine} {d : Duty} (h : e.Fits d) (hc : e.isClosing = true) :
    e.ClosingRow ∧ ((d = .free ∨ d = .released) ∧ e.served = none ∨
      ∃ p x, d = .serving p (.addressing x) ∧ e.served = some p) := by
  have hrow := h.row
  rcases d with _ | _ | _ | _ | ⟨p, _ | _ | x | b | ⟨b, c⟩⟩ <;> simp only [Engine.Row] at hrow <;> grind

/-- In STARTING and in the address phase, finishing and closing nothing, the engine serves a port in ADDRESSING (R75). -/
theorem Engine.Fits.addressPhase {e : Engine} {d : Duty} (h : e.Fits d) (hd : d ≠ .released) (hc : e.isClosing = false)
    (hs : e.state = .starting ∨ e.state = .address) : ∃ p x, d = .serving p (.addressing x) := by
  have hrow := h.row
  rcases d with _ | _ | _ | _ | ⟨p, _ | _ | x | b | ⟨b, c⟩⟩ <;>
  simp only [Engine.Row, Engine.QuietRow, Engine.StoppingRow] at hrow <;> grind

/-- The engine starts only for a port in ADDRESSING (R75, R77). -/
theorem Engine.Fits.driveStart {e : Engine} {d : Duty} {a : Addr} {dir : Dir} (h : e.Fits d) (hd : d ≠ .released)
    (hs : e.state = .starting) : (e.driveStart a dir).Fits d := by
  have hc : e.isClosing = false := by
    by_contra hc
    obtain ⟨⟨-, -, hstate, -⟩, -⟩ := h.closing (by simpa using hc)
    simp [hs] at hstate
  have htries : e.retry ≤ 2 := h.fresh (by simp [Engine.awaitsStart, hs])
  obtain ⟨p, x, rfl⟩ := h.addressPhase hd hc (.inl hs)
  obtain ⟨hserved, hrow⟩ := h.row
  have hx : e.target = some x := by
    rw [hc, if_neg Bool.false_ne_true] at hrow
    grind [Engine.StoppingRow]
  have hopen : (e.driveStart a dir).isClosing = false := hc
  refine ⟨⟨hserved, ?_⟩, Engine.holdLawful_stopped rfl, ?_, fun hfresh => ?_⟩
  · rw [hopen, if_neg Bool.false_ne_true]
    exact .inr (.inr ⟨rfl, rfl, rfl, hx⟩)
  · simp only [Engine.driveStart]
    split <;> omega
  · rw [Engine.awaitsStart, hopen] at hfresh
    simp [Engine.driveStart] at hfresh

/-- The seat of a port whose address the target has acknowledged (R79). -/
def acknowledgedSeat : Dir → Seat
  | .write => .writing false
  | .read => .reading true false

theorem Engine.clocks_iff {e : Engine} {st : EngState} :
    e.clocks st = true ↔ e.state = st ∧ e.activity = .clocking ∧ e.isClosing = false := by
  simp [Engine.clocks, and_assoc]

/-- The engine of a relaying port is in the data phase, and closes nothing. -/
theorem Engine.Row.relaying {e : Engine} {p : Port} {x : Seat} (h : e.Row (.serving p x)) (hx : x.relays = true) :
    e.isClosing = false ∧ (e.state = .writing ∨ e.state = .reading) := by
  cases x with
  | writing b =>
    obtain ⟨-, hc, hs, -⟩ := h
    exact ⟨hc, .inl hs⟩
  | reading b c =>
    obtain ⟨-, hc, hs, -⟩ := h
    exact ⟨hc, .inr hs⟩
  | _ => cases hx

/-- The engine of a relaying port awaits no start, whatever its retry count. -/
theorem Engine.Fits.of_relaying {e : Engine} {p : Port} {x : Seat} (hrow : e.Row (.serving p x)) (hx : x.relays = true)
    (hhold : e.HoldLawful) (htries : e.retry ≤ 3) : e.Fits (.serving p x) := by
  refine ⟨hrow, hhold, htries, fun hfresh => ?_⟩
  obtain ⟨hc, hs | hs⟩ := hrow.relaying hx <;> simp [Engine.awaitsStart, hc, hs] at hfresh

/-- The seat of the port for which the engine is in the data phase. -/
theorem Engine.Fits.relay_seat {e : Engine} {p : Port} {x : Seat} (h : e.Fits (.serving p x)) (hc : e.isClosing = false) :
    (e.state = .writing → ∃ b, x = .writing b) ∧ (e.state = .reading → ∃ b c, x = .reading b c) := by
  have hrow := h.row
  cases x <;> simp only [Engine.Row, Engine.StoppingRow] at hrow <;> grind

/-- The target acknowledges its address (R79). -/
theorem Engine.Fits.addressAcknowledged {e : Engine} {p : Port} {x : Addr × Dir}
    (h : e.Fits (.serving p (.addressing x))) (hc : e.clocks .address = true) :
    (e.addressAcknowledged x.2).Fits (.serving p (acknowledgedSeat x.2)) := by
  obtain ⟨hs, -, hclosing⟩ := Engine.clocks_iff.1 hc
  obtain ⟨hserved, hrow⟩ := h.row
  have hbus : e.busOwned = true := by
    rw [hclosing, if_neg Bool.false_ne_true] at hrow
    grind [Engine.StoppingRow]
  cases x.2 with
  | write =>
    exact .of_relaying ⟨hserved, hclosing, rfl, hbus, by simp [Engine.addressAcknowledged],
      by simp [Engine.addressAcknowledged]⟩ rfl (Engine.holdLawful_stopped rfl) h.tries
  | read =>
    exact .of_relaying ⟨hserved, hclosing, rfl, hbus, by simp [Engine.addressAcknowledged],
      by simp [Engine.addressAcknowledged]⟩ rfl (Engine.holdLawful_stopped rfl) h.tries

/-- The target answers a write byte (R81). -/
theorem Engine.Fits.writeAnswered {e : Engine} {p : Port} {x : Seat} (h : e.Fits (.serving p x))
    (hc : e.clocks .writing = true) : x = .writing true ∧
      ({ e with activity := .none, hold := .stopped }).Fits (.serving p (.writing false)) := by
  obtain ⟨hs, hact, hclosing⟩ := Engine.clocks_iff.1 hc
  obtain ⟨b, rfl⟩ := (h.relay_seat hclosing).1 hs
  obtain ⟨hserved, -, -, hbus, -, hbyte⟩ := h.row
  obtain rfl : b = true := hbyte.1 hact
  exact ⟨rfl, .of_relaying ⟨hserved, hclosing, hs, hbus, by simp, by simp⟩ rfl (Engine.holdLawful_stopped rfl) h.tries⟩

/-- The engine has clocked a read byte in (R83). -/
theorem Engine.Fits.readFetched {e : Engine} {p : Port} {x : Seat} (h : e.Fits (.serving p x))
    (hc : e.clocks .reading = true) : x = .reading true false ∧
      ({ e with activity := .slotOpen, hold := .stopped }).Fits (.serving p (.reading false false)) := by
  obtain ⟨hs, hact, hclosing⟩ := Engine.clocks_iff.1 hc
  obtain ⟨b, c, rfl⟩ := (h.relay_seat hclosing).2 hs
  obtain ⟨hserved, -, -, hbus, hbyte, hclosed⟩ := h.row
  obtain rfl : b = true := hbyte.1 hact
  obtain rfl : c = false := by simpa [hact] using hclosed
  exact ⟨rfl, .of_relaying ⟨hserved, hclosing, hs, hbus, by simp, by simp⟩ rfl (Engine.holdLawful_stopped rfl) h.tries⟩

/-- A byte begins to be clocked: what was timed may be timed on (R94). -/
theorem Engine.HoldLawful.clocking {e : Engine} (h : e.HoldLawful) (acts : List BusAct) :
    ({ e with activity := .clocking, bus := acts }).HoldLawful := by
  rw [Engine.holdLawful_iff] at h ⊢
  obtain ⟨hclock, hdata, hpulse⟩ := h
  exact ⟨fun hrun => (hclock hrun).imp_right fun hs => hs.imp_right fun hs => hs.imp_right fun hs => ⟨hs.1, rfl⟩,
    hdata, hpulse⟩

/-- The host's byte is clocked onto the segment (R81). -/
theorem Engine.Fits.clockWrite {e : Engine} {p : Port} {b : Bool} (h : e.Fits (.serving p (.writing b))) (x : Byte) :
    (e.clockWrite x).Fits (.serving p (.writing true)) := by
  obtain ⟨hserved, hclosing, hs, hbus, -, -⟩ := h.row
  exact .of_relaying ⟨hserved, hclosing, hs, hbus, by simp [Engine.clockWrite], by simp [Engine.clockWrite]⟩ rfl
    (h.hold.clocking _) h.tries

/-- The host's acknowledge is passed on and the next byte fetched (R84). -/
theorem Engine.Fits.ackAndFetch {e : Engine} {p : Port} {b : Bool} (h : e.Fits (.serving p (.reading b false))) :
    e.ackAndFetch.Fits (.serving p (.reading true false)) := by
  obtain ⟨hserved, hclosing, hs, hbus, -, -⟩ := h.row
  exact .of_relaying ⟨hserved, hclosing, hs, hbus, by simp [Engine.ackAndFetch], by simp [Engine.ackAndFetch]⟩ rfl
    (h.hold.clocking _) h.tries

/-- The host's not-acknowledge is passed on (R85): with no byte in hand nothing was timed. -/
theorem Engine.Fits.nackSlot {e : Engine} {p : Port} {c : Bool} (h : e.Fits (.serving p (.reading false c))) :
    e.nackSlot.Fits (.serving p (.reading false true)) := by
  obtain ⟨hserved, hclosing, hs, hbus, hbyte, -⟩ := h.row
  have hact : e.activity ≠ .clocking := fun hact => Bool.noConfusion (hbyte.1 hact)
  refine .of_relaying ⟨hserved, hclosing, hs, hbus, by simp [Engine.nackSlot], by simp [Engine.nackSlot]⟩ rfl ?_ h.tries
  have hhold := h.hold
  rw [Engine.holdLawful_iff] at hhold ⊢
  simp only [hs, hact] at hhold
  simpa [Engine.nackSlot, hs] using hhold

/-- The port keeps its grant for a repeated start (R88). -/
theorem Engine.Fits.restart {e : Engine} {p : Port} {x : Seat} (h : e.Fits (.serving p x)) (hx : x.relays = true)
    (y : Addr × Dir) : (e.restart y).Fits (.serving p (.addressing y)) := by
  have hopen : (e.restart y).isClosing = false := (h.row.relaying hx).1
  refine ⟨⟨h.served, ?_⟩, ?_, Nat.zero_le _, fun _ => Nat.zero_le _⟩
  · rw [hopen, if_neg Bool.false_ne_true]
    exact .inr (.inl ⟨rfl, rfl, rfl⟩)
  · rw [Engine.holdLawful_iff]
    simp [Engine.restart]

/-! ### The end of a segment message -/

/-- An engine in STOPPING is there for nobody, or for a port in ADDRESSING (R75). -/
theorem Engine.Fits.stopping {e : Engine} {d : Duty} (h : e.Fits d) (hs : e.state = .stopping) :
    e.isClosing = false ∧ e.StoppingRow ∧ ((d = .free ∨ d = .released) ∧ e.served = none ∨
      ∃ p x, d = .serving p (.addressing x) ∧ e.served = some p) := by
  have hrow := h.row
  rcases d with _ | _ | _ | _ | ⟨p, _ | _ | x | b | ⟨b, c⟩⟩ <;>
  simp only [Engine.Row, Engine.ClosingRow, Engine.QuietRow, Engine.StoppingRow] at hrow ⊢ <;> grind

/-- The last byte of a released transfer is finished: the engine is in STOPPING, or fetches the byte it discards (R90). -/
theorem Engine.finishClosing_cases {e : Engine} (h : e.ClosingRow) (acked : Bool) :
    (e.finishClosing acked).served = e.served ∧ (e.finishClosing acked).retry = e.retry ∧
      (e.finishClosing acked).hold = .stopped ∧
      ((e.finishClosing acked).isClosing = false ∧ (e.finishClosing acked).StoppingRow ∨
        (e.finishClosing acked).isClosing = true ∧ (e.finishClosing acked).ClosingRow) := by
  obtain ⟨hact, hbus, hstate, hdisc⟩ := h
  unfold Engine.finishClosing Engine.driveStop Engine.StoppingRow Engine.ClosingRow Engine.isClosing
  dsimp only
  repeat' split
  all_goals simp [*]

/-- The last byte of a released transfer is finished (R90). -/
theorem Engine.Fits.finishClosing {e : Engine} {d : Duty} (h : e.Fits d) (hc : e.isClosing = true)
    (acked : Bool) : (e.finishClosing acked).Fits d := by
  obtain ⟨hclosing, hd⟩ := h.closing hc
  obtain ⟨hserved, hretry, hhold, hrow⟩ := Engine.finishClosing_cases hclosing acked
  refine ⟨?_, Engine.holdLawful_stopped hhold, hretry ▸ h.tries, fun hfresh => ?_⟩
  · obtain ⟨rfl | rfl, hs⟩ | ⟨p, x, rfl, hs⟩ := hd <;> refine ⟨hserved.trans hs, ?_⟩ <;> grind
  · rw [hretry]
    refine h.fresh ?_
    simp only [Engine.awaitsStart, Engine.StoppingRow, Engine.ClosingRow] at hfresh hrow ⊢
    grind

/-- The stop completes, and a served port's start is prepared (R91). -/
theorem Engine.Fits.stopCompleted {e : Engine} {d : Duty} {target : Option (Addr × Dir)} (h : e.Fits d)
    (hs : e.state = .stopping) (ht : ∀ p x, d = .serving p (.addressing x) → target = some x)
    (shared : Bool) : (e.stopCompleted target shared).Fits d := by
  obtain ⟨hc, -, ⟨hd, hserved⟩ | ⟨p, x, hd, hserved⟩⟩ := h.stopping hs
  · have heq : e.stopCompleted target shared = { e.toQuiet with foreignBusy := e.foreignBusy && shared } := by
      simp only [Engine.stopCompleted, hserved]
      rfl
    rw [heq]
    exact (Engine.toQuiet_fits h.tries (hd.imp_right .inl)).foreign _ _
  · have htries : e.retry ≤ 2 := h.fresh (by simp [Engine.awaitsStart, hs, hserved])
    have hcl : e.closing = false ∧ e.discarding = false := by simpa [Engine.isClosing] using hc
    rw [hd, ht p x hd]
    simp only [Engine.stopCompleted, hserved]
    refine ⟨⟨rfl, ?_⟩, Engine.holdLawful_stopped rfl, h.tries, fun _ => htries⟩
    simp [Engine.enterStarting, Engine.isClosing, hcl]

/-! ### Recoveries and losses -/

theorem Engine.beginRecovery_fits {e : Engine} (h : e.retry ≤ 3) (b : Option Port) : (e.beginRecovery b).Fits .recovering :=
  ⟨⟨rfl, rfl, rfl, rfl, rfl, rfl, rfl⟩, Engine.holdLawful_stopped rfl, h, fun h => Bool.noConfusion h⟩

theorem Engine.endRecovery_fits {e : Engine} {d : Duty} (h : e.retry ≤ 3) (hd : d = .free ∨ d = .released ∨ d = .down)
    (acts : List BusAct) : (e.endRecovery acts).Fits d :=
  (Engine.toQuiet_fits h hd).foreign false acts

/-- What an engine does in an arbitration loss before its next start is prepared (R98, R99, R101). -/
theorem Engine.lose_again {e : Engine} {p : Port} {x : Addr × Dir} {target : Option (Addr × Dir)} (hserved : e.served = some p)
    (htries : e.retry ≤ 2) (ht : target = some x) (shared : Bool) :
    ({ e.lose with discarding := false, target := target }.enterStarting shared).Fits (.serving p (.addressing x)) :=
  ⟨⟨hserved, .inr (.inl ⟨rfl, rfl, ht⟩)⟩, Engine.holdLawful_stopped rfl, htries.trans (by decide), fun _ => htries⟩

/-! ### Held lines -/

/-- The hold timer, and in a recovery its step and pulse count, are outside the rows of R75 but for the count of R105. -/
theorem Engine.Row.timing {e : Engine} {d : Duty} (h : e.Row d) {hold : HoldTimer} {step : RecStep} {pulses : Nat}
    {acts : List BusAct}
    (hp : e.state = .recovering → e.PulsesLawful → ({ e with recStep := step, pulses := pulses }).PulsesLawful) :
    ({ e with hold := hold, recStep := step, pulses := pulses, bus := acts }).Row d := by
  rcases d with _ | _ | _ | _ | ⟨p, _ | _ | x | b | ⟨b, c⟩⟩
  case recovering =>
    obtain ⟨hserved, hclosing, hstate, htarget, hbus, hact, hpulses⟩ := h
    exact ⟨hserved, hclosing, hstate, htarget, hbus, hact, hp hstate hpulses⟩
  all_goals exact h

/-- A change of the hold timer alone. -/
theorem Engine.Fits.onHold {e : Engine} {d : Duty} (h : e.Fits d) {hold : HoldTimer}
    (hhold : ({ e with hold := hold }).HoldLawful) : ({ e with hold := hold }).Fits d :=
  ⟨h.row.timing fun _ hp => hp, hhold, h.tries, h.fresh⟩

/-- An engine in a recovery has no other duty. -/
theorem Engine.Fits.pulses {e : Engine} {d : Duty} (h : e.Fits d) (hs : e.state = .recovering) : e.PulsesLawful := by
  have hrow := h.row
  rcases d with _ | _ | _ | _ | ⟨p, _ | _ | x | b | ⟨b, c⟩⟩ <;>
  simp only [Engine.Row, Engine.ClosingRow, Engine.QuietRow, Engine.StoppingRow] at hrow <;> grind

/-- A line is timed (R94). -/
theorem Engine.Fits.timeLine {e : Engine} {d : Duty} (h : e.Fits d) {l : Line} (hl : e.watches l = true) (limit : Nat) :
    (e.timeLine limit l).Fits d := by
  have hhold := h.hold
  rw [Engine.holdLawful_iff] at hhold
  unfold Engine.timeLine
  dsimp only
  split
  · exact h
  · split
    · rename_i hs hr
      refine ⟨h.row.timing fun hs hp => ?_, ?_, h.tries, h.fresh⟩
      · simp only [Engine.PulsesLawful, hr] at hp ⊢
        omega
      · have hclock : l = .clock := by
          cases l
          · rfl
          · simp [Engine.watches, hs, hr] at hl
        rw [Engine.holdLawful_iff]
        simp only [hclock, HoldTimer.onLine]
        grind
    · refine h.onHold ?_
      rw [Engine.holdLawful_iff]
      cases l
      · simp only [HoldTimer.onLine]
        rw [Engine.watches_clock] at hl
        grind
      · simp only [HoldTimer.onLine]
        simp only [Engine.watches] at hl
        grind

/-- A line is released (R94, R97). -/
theorem Engine.Fits.lineReleased {e : Engine} {d : Duty} (h : e.Fits d) (l : Line) :
    ({ e with hold := e.hold.onLine l .stopped }).Fits d := by
  have hhold := h.hold
  rw [Engine.holdLawful_iff] at hhold
  refine h.onHold ?_
  rw [Engine.holdLawful_iff]
  cases l <;> simp only [HoldTimer.onLine] <;> grind [Timer.isRunning, HoldTimer.stopped]

/-- One tick passes. -/
theorem Engine.Fits.tick {e : Engine} {d : Duty} (h : e.Fits d) : ({ e with hold := e.hold.tick }).Fits d := by
  have hhold := h.hold
  rw [Engine.holdLawful_iff] at hhold
  refine h.onHold ?_
  rw [Engine.holdLawful_iff]
  simp only [HoldTimer.tick, Timer.tick_isRunning]
  obtain ⟨h₁, h₂, h₃⟩ := hhold
  refine ⟨h₁, h₂, fun hs hr => ?_⟩
  rw [h₃ hs hr]
  rfl

/-- The test of a recovery's look finds the data line low, or high (R105 step 2). -/
theorem Engine.Fits.tested {e : Engine} {d : Duty} (h : e.Fits d) (ht : e.testsData = true) {step : RecStep}
    (hstep : step = .pulse ∨ step = .stop) : ({ e with recStep := step }).Fits d := by
  obtain ⟨⟨hs, hlook⟩, hclock⟩ : (e.state = .recovering ∧ e.recStep = .look) ∧ e.hold.clock.isRunning = false := by
    simpa [Engine.testsData] using ht
  have hhold := h.hold
  rw [Engine.holdLawful_iff] at hhold
  have hstopped : e.hold = .stopped := by
    by_contra hne
    rw [← ne_eq, ← HoldTimer.isRunning_iff, HoldTimer.isRunning] at hne
    grind
  refine ⟨h.row.timing fun _ hp => ?_, Engine.holdLawful_stopped hstopped, h.tries, h.fresh⟩
  simp only [Engine.PulsesLawful, hlook] at hp
  obtain rfl | rfl := hstep <;> simp only [Engine.PulsesLawful] <;> omega

/-- A pulse completes, the data line high or a further pulse left (R105). -/
theorem Engine.Fits.pulsed {e : Engine} {d : Duty} (h : e.Fits d) (ha : e.atPulse = true) (dataHigh : Bool)
    (hlast : dataHigh = true ∨ e.pulseCount < 9) : (e.pulsed dataHigh).Fits d := by
  refine ⟨h.row.timing fun _ hp => ?_, Engine.holdLawful_stopped rfl, h.tries, h.fresh⟩
  simp only [Engine.atPulse, Config.pulseLimit] at ha
  simp only [Engine.pulseCount] at hlast ⊢
  simp only [Engine.PulsesLawful] at hp ⊢
  grind

end Sys2Proof.Machine
end

section
/-! SUPPORT. What each change of an arbiter and of the seats at its segment does to its law (R56, R57). -/

namespace Sys2Proof.Machine

open Function (update update_apply)

section
variable {a b : Arbiter} {seat : Port → Seat} {p : Port} {x : Seat}

/-! ### The queue (R57) -/

/-- One port changes its seat, its place in the queue and its wait timer. -/
theorem Arbiter.QueueFits.change (h : a.QueueFits seat) (hnodup : b.queue.Nodup) (hshort : b.queue.length ≤ 3)
    (hmem : p ∈ b.queue ↔ x = .waiting) (htime : b.waits[p].isRunning = x.timed)
    (hqueue : ∀ q ≠ p, (q ∈ b.queue ↔ q ∈ a.queue)) (hwaits : ∀ q : Port, q ≠ p → b.waits[q] = a.waits[q]) :
    b.QueueFits (update seat p x) := by
  refine ⟨fun q => ?_, hnodup, hshort, fun q => ?_⟩
  · by_cases hq : q = p
    · subst hq; simpa using hmem
    · rw [hqueue q hq, h.queued, Function.update_of_ne hq]
  · by_cases hq : q = p
    · subst hq; simpa using htime
    · rw [hwaits q hq, h.timed, Function.update_of_ne hq]

/-- A port outside the queue takes another seat outside it. -/
theorem Arbiter.QueueFits.reseat (h : a.QueueFits seat) (hp : seat p ≠ .waiting) (hx : x ≠ .waiting)
    (hqueue : b.queue = a.queue) (htime : b.waits[p].isRunning = x.timed)
    (hwaits : ∀ q : Port, q ≠ p → b.waits[q] = a.waits[q]) : b.QueueFits (update seat p x) := by
  refine h.change (hqueue ▸ h.nodup) (hqueue ▸ h.short) ?_ htime (fun q _ => by rw [hqueue]) hwaits
  rw [hqueue, h.queued]
  exact iff_of_false hp hx

/-- A port joins the tail of the queue (R58). -/
theorem Arbiter.QueueFits.join (h : a.QueueFits seat) (hp : seat p ≠ .waiting) (hroom : a.queue.length < 3)
    (hqueue : b.queue = a.queue ++ [p]) (htime : b.waits[p].isRunning = true)
    (hwaits : ∀ q : Port, q ≠ p → b.waits[q] = a.waits[q]) : b.QueueFits (update seat p .waiting) := by
  have hout : p ∉ a.queue := fun hq => hp ((h.queued p).1 hq)
  refine h.change ?_ ?_ ?_ htime (fun q hq => ?_) hwaits
  · rw [hqueue, List.nodup_append]
    exact ⟨h.nodup, List.nodup_singleton p, by grind⟩
  · rw [hqueue, List.length_append, List.length_singleton]
    omega
  · simp [hqueue]
  · simp [hqueue, hq]

/-- A queued port leaves the queue (R57, R60, R63). -/
theorem Arbiter.QueueFits.leave (h : a.QueueFits seat) (hx : x ≠ .waiting) (hqueue : b.queue = a.queue.erase p)
    (htime : b.waits[p].isRunning = x.timed) (hwaits : ∀ q : Port, q ≠ p → b.waits[q] = a.waits[q]) :
    b.QueueFits (update seat p x) := by
  refine h.change (hqueue ▸ h.nodup.erase p) ?_ ?_ htime (fun q hq => ?_) hwaits
  · rw [hqueue]
    exact (List.erase_sublist.length_le).trans h.short
  · simp [hqueue, h.nodup.mem_erase_iff, hx]
  · simp [hqueue, h.nodup.mem_erase_iff, hq]

/-- A segment with a holder has room for another port (R57). -/
theorem Arbiter.QueueFits.room (h : a.QueueFits seat) {q : Port} (hp : seat p ≠ .waiting) (hq : seat q ≠ .waiting)
    (hne : p ≠ q) : a.queue.length < 3 := by
  have hp' : p ∉ a.queue := fun hm => hp ((h.queued p).1 hm)
  have hq' : q ∉ a.queue := fun hm => hq ((h.queued q).1 hm)
  have hnodup : (p :: q :: a.queue).Nodup := by
    simp [hne, hp', hq', h.nodup]
  have hcard := hnodup.length_le_card
  simp only [List.length_cons, Fintype.card_fin] at hcard
  omega

/-! ### The holder (R56) -/

/-- The segment state names the port: as holder or as resume port. -/
def SegState.Names (st : SegState) (p : Port) : Prop := st = .active p ∨ st = .recovering (some p)

theorem SegState.allows_unnamed {st : SegState} (h : ¬ st.Names p) : st.Allows p x ↔ x = .away ∨ x = .waiting := by
  unfold SegState.Names at h
  cases x <;> simp only [SegState.Allows] <;> grind

/-- The segment passes to, or from, one port. -/
theorem SegState.allows_change {st st' : SegState} (h : ∀ q, st.Allows q (seat q)) (hst : ∀ q ≠ p, ¬ st.Names q)
    (hst' : ∀ q ≠ p, ¬ st'.Names q) (hx : st'.Allows p x) : ∀ q, st'.Allows q (update seat p x q) := by
  intro q
  by_cases hq : q = p
  · subst hq; simpa using hx
  · rw [Function.update_of_ne hq, SegState.allows_unnamed (hst' q hq), ← SegState.allows_unnamed (hst q hq)]
    exact h q

/-- The segment stays as it is, and allows the new seat of one port. -/
theorem SegState.allows_reseat {st : SegState} (h : ∀ q, st.Allows q (seat q)) (hx : st.Allows p x) :
    ∀ q, st.Allows q (update seat p x q) := by
  intro q
  by_cases hq : q = p
  · subst hq; simpa using hx
  · rw [Function.update_of_ne hq]
    exact h q

/-- A seat that is not the holder's does not count for the engine. -/
theorem SegState.duty_update {st : SegState} (h : st ≠ .active p) : st.duty (update seat p x) = st.duty seat := by
  cases st with
  | active q =>
    have hq : q ≠ p := fun hq => h (hq ▸ rfl)
    simp only [SegState.duty, Function.update_of_ne hq]
  | _ => rfl

theorem SegState.not_names_active {q : Port} (h : q ≠ p) : ¬ (SegState.active p).Names q := by
  simp [SegState.Names, h.symm]

theorem SegState.not_names_recovering {q : Port} (h : q ≠ p) : ¬ (SegState.recovering (some p)).Names q := by
  simp [SegState.Names, h.symm]

theorem SegState.not_names_free {st : SegState} (h : st = .idle ∨ st = .disabled ∨ st = .fault ∨ st = .recovering none)
    (q : Port) : ¬ st.Names q := by
  unfold SegState.Names
  grind

/-- A segment in use has no other demand than that a disable is pending when it was asked for (R55, R70). -/
theorem Arbiter.configured_busy (h : (∃ q, a.state = .active q) ∨ ∃ r, a.state = .recovering r)
    (hpending : a.disablePending = !a.enable) : a.Configured := by
  refine ⟨?_, ?_, fun _ => hpending⟩ <;> grind

theorem Arbiter.Fits.pending (h : a.Fits seat) (hst : a.state ≠ .disabled) : a.disablePending = !a.enable :=
  h.config.on hst

/-- The holder does not wait (R57). -/
theorem Arbiter.Fits.holder_ne_waiting (h : a.Fits seat) (hst : a.state = .active p) : seat p ≠ .waiting := by
  intro hp
  have hallows := h.held p
  simp [hp, SegState.Allows, hst] at hallows

/-- A port that is away, or waits, does not hold the segment (R56). -/
theorem Arbiter.Fits.ne_holder (h : a.Fits seat) (hp : seat p = .away ∨ seat p = .waiting) : a.state ≠ .active p := by
  intro hst
  have hallows := h.held p
  obtain hp | hp := hp <;> simp [hp, SegState.Allows, hst] at hallows

/-- Without a holder and a resume port, every port waits or is away (R56). -/
theorem Arbiter.Fits.nobody (h : a.Fits seat) (hst : ∀ q, ¬ a.state.Names q) (q : Port) : seat q = .away ∨ seat q = .waiting :=
  (SegState.allows_unnamed (hst q)).1 (h.held q)

theorem SegState.allows_nobody {st : SegState} (h : ∀ q, seat q = .away ∨ seat q = .waiting) (hst : ∀ q, ¬ st.Names q)
    (q : Port) : st.Allows q (seat q) :=
  (SegState.allows_unnamed (hst q)).2 (h q)

/-! ### A port comes (R58) -/

/-- A port comes to an IDLE segment and holds it. -/
theorem Arbiter.Fits.take (h : a.Fits seat) (hst : a.state = .idle) (hp : seat p = .away) (limit : Nat) (y : Addr × Dir) :
    ({ a with state := .active p, waits := tabUpd a.waits p (fun _ => Timer.start limit) }).Fits
      (update seat p (.addressing y)) := by
  refine ⟨h.queue.reseat (by simp [hp]) (by simp) rfl (by rw [tabUpd_self]; rfl) fun q hq => tabUpd_other _ _ _ _ hq.symm,
    SegState.allows_change h.held (fun q _ => ?_) (fun q => SegState.not_names_active) (.inl rfl),
    Arbiter.configured_busy (.inl ⟨p, rfl⟩) (h.pending (by simp [hst])), h.bounded⟩
  exact SegState.not_names_free (.inl hst) q

/-- A port comes to a segment in use that has room for it, and waits. -/
theorem Arbiter.Fits.join (h : a.Fits seat) (hst : (∃ q, a.state = .active q) ∨ ∃ r, a.state = .recovering r)
    (hp : seat p = .away) (hroom : a.queue.length < 3) (limit : Nat) :
    ({ a with queue := a.queue ++ [p], waits := tabUpd a.waits p (fun _ => Timer.start limit) }).Fits
      (update seat p .waiting) := by
  have hallows : a.state.Allows p .waiting := by
    have := h.held p
    rwa [hp] at this
  refine ⟨h.queue.join (by simp [hp]) hroom rfl (by rw [tabUpd_self]; rfl) fun q hq => tabUpd_other _ _ _ _ hq.symm,
    SegState.allows_reseat h.held hallows, Arbiter.configured_busy hst (h.pending (by grind)),
    h.bounded⟩

/-- An ACTIVE segment has room (R57, R58). -/
theorem Arbiter.Fits.room (h : a.Fits seat) {q : Port} (hst : a.state = .active q) (hp : seat p = .away) :
    a.queue.length < 3 := by
  have hpq : p ≠ q := by
    rintro rfl
    exact h.ne_holder (.inl hp) hst
  exact h.queue.room (by simp [hp]) (h.holder_ne_waiting hst) hpq

/-! ### The holder, and a recovery (R56, R64, R65) -/

/-- The holder of an ACTIVE segment goes from ADDRESSING to a relay state or back, or on in its relay state. -/
theorem Arbiter.Fits.onHolder (h : a.Fits seat) (hst : a.state = .active p) (hx : x.addresses = true ∨ x.relays = true)
    {time : Timer} (htime : time.isRunning = x.timed) :
    ({ a with waits := tabUpd a.waits p (fun _ => time) }).Fits (update seat p x) := by
  refine ⟨h.queue.reseat (h.holder_ne_waiting hst) (by rintro rfl; simp [Seat.addresses, Seat.relays] at hx) rfl (by rw [tabUpd_self]; exact htime)
    fun q hq => tabUpd_other _ _ _ _ hq.symm, SegState.allows_reseat h.held ?_,
    Arbiter.configured_busy (.inl ⟨p, hst⟩) (h.pending (by simp [hst])), h.bounded⟩
  cases x <;> simp [SegState.Allows, Seat.addresses, Seat.relays, hst] at hx ⊢

theorem Seat.timed_of_relays (h : x.relays = true) : x.timed = false := by
  cases x <;> simp [Seat.relays, Seat.timed] at h ⊢

/-- The holder in a relay state goes on with no timer of its own (R59). -/
theorem Arbiter.Fits.onRelay (h : a.Fits seat) (hst : a.state = .active p) (hp : (seat p).relays = true)
    (hx : x.relays = true) : a.Fits (update seat p x) := by
  have htime : a.waits[p].isRunning = x.timed := by
    rw [h.queue.timed p]
    rw [Seat.timed_of_relays hp, Seat.timed_of_relays hx]
  have hsame := h.onHolder hst (.inr hx) htime
  rwa [tabUpd_eq_self _ _ _ rfl] at hsame

/-- A recovery begins under the holder in ADDRESSING, which becomes the resume port (R64). -/
theorem Arbiter.Fits.suspend (h : a.Fits seat) (hst : a.state = .active p) {y : Addr × Dir} (hp : seat p = .addressing y) :
    ({ a with state := .recovering (some p), recoveryCount := min 65535 (a.recoveryCount + 1) }).Fits seat := by
  have hseat : seat = update seat p (.addressing y) := by rw [← hp, Function.update_eq_self]
  obtain ⟨w₁, w₂, g₁, g₂, hl, -⟩ := h.bounded
  refine ⟨⟨h.queue.queued, h.queue.nodup, h.queue.short, h.queue.timed⟩, ?_,
    Arbiter.configured_busy (.inr ⟨_, rfl⟩) (h.pending (by simp [hst])), ⟨w₁, w₂, g₁, g₂, hl, min_le_left _ _⟩⟩
  rw [hseat]
  exact SegState.allows_change h.held (fun q => hst ▸ SegState.not_names_active) (fun q => SegState.not_names_recovering)
    (.inr rfl)

/-- A recovery begins on a segment without a holder (R64). -/
theorem Arbiter.Fits.recover (h : a.Fits seat) (hst : a.state = .idle ∨ a.state = .fault) :
    ({ a with state := .recovering none, recoveryCount := min 65535 (a.recoveryCount + 1) }).Fits seat := by
  obtain ⟨w₁, w₂, g₁, g₂, hl, -⟩ := h.bounded
  refine ⟨⟨h.queue.queued, h.queue.nodup, h.queue.short, h.queue.timed⟩,
    SegState.allows_nobody (h.nobody (SegState.not_names_free (by grind))) (SegState.not_names_free (by simp)),
    Arbiter.configured_busy (.inr ⟨_, rfl⟩) (h.pending (by grind)), ⟨w₁, w₂, g₁, g₂, hl, min_le_left _ _⟩⟩

/-- A recovery begins as the holder is broken out of its transfer (R64, R102). -/
theorem Arbiter.Fits.break (h : a.Fits seat) (hst : a.state = .active p) (hp : (seat p).relays = true) :
    ({ a with state := .recovering none, recoveryCount := min 65535 (a.recoveryCount + 1) }).Fits
      (update seat p .away) := by
  obtain ⟨w₁, w₂, g₁, g₂, hl, -⟩ := h.bounded
  refine ⟨h.queue.reseat (by intro hw; simp [hw, Seat.relays] at hp) (by simp) rfl ?_ fun q _ => rfl,
    SegState.allows_change h.held (fun q => hst ▸ SegState.not_names_active)
      (fun q _ => SegState.not_names_free (by simp) q) (by simp [SegState.Allows]),
    Arbiter.configured_busy (.inr ⟨_, rfl⟩) (h.pending (by simp [hst])), ⟨w₁, w₂, g₁, g₂, hl, min_le_left _ _⟩⟩
  exact (h.queue.timed p).trans (Seat.timed_of_relays hp)

/-- The resume port holds the segment again (R65). -/
theorem Arbiter.Fits.resume (h : a.Fits seat) (hst : a.state = .recovering (some p)) :
    (∃ y, seat p = .addressing y) ∧ ({ a with state := .active p }).Fits seat := by
  have hy : ∃ y, seat p = .addressing y := by
    have := h.held p
    cases hp : seat p <;> simp [hp, SegState.Allows, hst] at this ⊢
  obtain ⟨y, hp⟩ := hy
  have hseat : seat = update seat p (.addressing y) := by rw [← hp, Function.update_eq_self]
  refine ⟨⟨y, hp⟩, ⟨h.queue.queued, h.queue.nodup, h.queue.short, h.queue.timed⟩, ?_,
    Arbiter.configured_busy (.inl ⟨_, rfl⟩) (h.pending (by simp [hst])), h.bounded⟩
  rw [hseat]
  exact SegState.allows_change h.held (fun q => hst ▸ SegState.not_names_recovering) (fun q => SegState.not_names_active)
    (.inl rfl)

/-- The resume port leaves its recovery (R61, R68). -/
theorem Arbiter.Fits.resumeLeaves (h : a.Fits seat) (hst : a.state = .recovering (some p)) :
    ({ a with state := .recovering none, waits := tabUpd a.waits p (fun _ => .stopped) }).Fits (update seat p .away) := by
  obtain ⟨⟨y, hp⟩, -⟩ := h.resume hst
  refine ⟨h.queue.reseat (by simp [hp]) (by simp) rfl (by rw [tabUpd_self]; rfl) fun q hq => tabUpd_other _ _ _ _ hq.symm,
    SegState.allows_change h.held (fun q => hst ▸ SegState.not_names_recovering)
      (fun q _ => SegState.not_names_free (by simp) q) (by simp [SegState.Allows]),
    Arbiter.configured_busy (.inr ⟨_, rfl⟩) (h.pending (by simp [hst])), h.bounded⟩

/-- A queued port leaves the queue (R57, R60, R68). -/
theorem Arbiter.Fits.leave (h : a.Fits seat) (hp : seat p = .waiting) :
    ({ a with queue := a.queue.erase p, waits := tabUpd a.waits p (fun _ => .stopped) }).Fits (update seat p .away) := by
  have hallows : a.state.Allows p .away := by
    have := h.held p
    rwa [hp] at this
  refine ⟨h.queue.leave (by simp) rfl (by rw [tabUpd_self]; rfl) fun q hq => tabUpd_other _ _ _ _ hq.symm,
    SegState.allows_reseat h.held hallows, ⟨fun hst => ?_, h.config.off, h.config.on⟩, h.bounded⟩
  obtain ⟨hempty, hpending⟩ := h.config.still hst
  exact ⟨by simp [hempty], hpending⟩

/-! ### The holder leaves, and the queue is served (R62, R63) -/

/-- The queue of a segment that nobody holds, before it is served. -/
structure Arbiter.Vacated (a : Arbiter) (seat : Port → Seat) : Prop where
  queue : a.QueueFits seat
  nobody : ∀ p, seat p = .away ∨ seat p = .waiting
  pending : a.disablePending = !a.enable
  bounded : a.Bounded

/-- The holder has left (R62). -/
theorem Arbiter.Fits.vacate (h : a.Fits seat) (hst : a.state = .active p) :
    ({ a with waits := tabUpd a.waits p (fun _ => .stopped) }).Vacated (update seat p .away) := by
  refine ⟨h.queue.reseat (h.holder_ne_waiting hst) (by simp) rfl (by rw [tabUpd_self]; rfl) fun q hq => tabUpd_other _ _ _ _ hq.symm, fun q => ?_,
    h.pending (by simp [hst]), h.bounded⟩
  by_cases hq : q = p
  · exact .inl (by simp [hq])
  · rw [Function.update_of_ne hq, ← SegState.allows_unnamed (st := a.state) (by rw [hst]; exact SegState.not_names_active hq)]
    exact h.held q

/-- A recovery without a resume port has ended (R65). -/
theorem Arbiter.Fits.vacated (h : a.Fits seat) (hst : a.state = .recovering none) : a.Vacated seat :=
  ⟨h.queue, h.nobody (SegState.not_names_free (by simp [hst])), h.pending (by simp [hst]), h.bounded⟩

/-- Nobody is left in the queue (R63 way 3). -/
theorem Arbiter.Vacated.idle (h : a.Vacated seat) (hq : a.queue = []) (hd : a.disablePending = false) :
    ({ a with queue := [], state := .idle }).Fits seat := by
  have hqueue : ({ a with queue := [], state := .idle } : Arbiter).queue = a.queue := hq.symm
  refine ⟨⟨fun q => hqueue ▸ h.queue.queued q, List.nodup_nil, by simp, h.queue.timed⟩,
    SegState.allows_nobody h.nobody (SegState.not_names_free (by simp)),
    ⟨fun _ => ⟨rfl, hd⟩, by simp, fun _ => h.pending⟩, h.bounded⟩

/-- The head of the queue is granted the segment (R63 way 2). -/
theorem Arbiter.Vacated.granted (h : a.Vacated seat) {rest : List Port} (hq : a.queue = p :: rest) (y : Addr × Dir) :
    ({ a with queue := rest, state := .active p }).Fits (update seat p (.addressing y)) := by
  have hp : seat p = .waiting := (h.queue.queued p).1 (by simp [hq])
  refine ⟨h.queue.leave (by simp) (by simp [hq]) ?_ fun q _ => rfl, fun q => ?_,
    Arbiter.configured_busy (.inl ⟨_, rfl⟩) h.pending, h.bounded⟩
  · show a.waits[p].isRunning = _
    rw [h.queue.timed p, hp]
    rfl
  · by_cases hqp : q = p
    · subst hqp; simp [SegState.Allows]
    · rw [Function.update_of_ne hqp, SegState.allows_unnamed (SegState.not_names_active hqp)]
      exact h.nobody q

/-- The head of the queue is turned away (R63 way 2). -/
theorem Arbiter.Vacated.refused (h : a.Vacated seat) {rest : List Port} (hq : a.queue = p :: rest) :
    ({ a with queue := rest, waits := tabUpd a.waits p (fun _ => .stopped) }).Vacated (update seat p .away) := by
  refine ⟨h.queue.leave (by simp) (by simp [hq]) (by rw [tabUpd_self]; rfl) fun q hq => tabUpd_other _ _ _ _ hq.symm,
    fun q => ?_, h.pending, h.bounded⟩
  by_cases hqp : q = p
  · exact .inl (by simp [hqp])
  · rw [Function.update_of_ne hqp]
    exact h.nobody q

/-- Everyone has been turned away. -/
theorem Arbiter.fits_empty (hst : a.state = .disabled ∨ a.state = .fault) (hq : a.queue = [])
    (hwaits : ∀ p : Port, a.waits[p] = .stopped) (hseat : ∀ p, seat p = .away) (hc : a.Configured) (hb : a.Bounded) :
    a.Fits seat := by
  refine ⟨⟨by simp [hq, hseat], by simp [hq], by simp [hq], fun p => ?_⟩,
    SegState.allows_nobody (fun p => .inl (hseat p)) (SegState.not_names_free (by grind)), hc, hb⟩
  rw [hwaits p, hseat p]
  rfl

/-! ### Configuration, counts and time -/

/-- An SCFG keeps the queue and the timers, and moves the segment only between IDLE, FAULT and DISABLED (R70). -/
theorem Arbiter.configure_frame (c : SegConfig) (a : Arbiter) :
    (a.configure c).queue = a.queue ∧ (a.configure c).waits = a.waits ∧
      ((a.configure c).state = a.state ∨ (a.state = .idle ∨ a.state = .fault ∨ a.state = .disabled) ∧
        ((a.configure c).state = .disabled ∨ (a.configure c).state = .idle)) := by
  unfold Arbiter.configure
  dsimp only
  split <;> simp [*]

/-- An SCFG keeps the law of the arbiter (R69, R70). -/
theorem Arbiter.Fits.configure (h : a.Fits seat) {c : SegConfig} (hw : 1 ≤ c.waitLimit ∧ c.waitLimit ≤ 255)
    (hh : 5 ≤ c.holdLimit ∧ c.holdLimit ≤ 100) : (a.configure c).Fits seat := by
  obtain ⟨hqueue, hwaits, hstate⟩ := a.configure_frame c
  refine ⟨⟨hqueue ▸ h.queue.queued, hqueue ▸ h.queue.nodup, hqueue ▸ h.queue.short, hwaits ▸ h.queue.timed⟩, ?_, ?_, ?_⟩
  · obtain hsame | ⟨hfrom, hto⟩ := hstate
    · rw [hsame]
      exact h.held
    · exact SegState.allows_nobody (h.nobody (SegState.not_names_free (by grind))) (SegState.not_names_free (by grind))
  · obtain ⟨hstill, hoff, hon⟩ := h.config
    unfold Arbiter.configure
    constructor <;> grind
  · obtain ⟨-, -, -, -, hl, hr⟩ := h.bounded
    unfold Arbiter.configure Arbiter.Bounded
    dsimp only
    split <;> exact ⟨hw.1, hw.2, hh.1, hh.2, hl, hr⟩

/-- A loss counted (R98). -/
theorem Arbiter.Fits.lost (h : a.Fits seat) : ({ a with lossCount := min 65535 (a.lossCount + 1) }).Fits seat := by
  obtain ⟨⟨h₁, h₂, h₃, h₄⟩, hheld, ⟨c₁, c₂, c₃⟩, w₁, w₂, g₁, g₂, -, hr⟩ := h
  exact ⟨⟨h₁, h₂, h₃, h₄⟩, hheld, ⟨c₁, c₂, c₃⟩, w₁, w₂, g₁, g₂, min_le_left _ _, hr⟩

/-- One tick passes. -/
theorem Arbiter.Fits.tick (h : a.Fits seat) : ({ a with waits := tabMap a.waits Timer.tick }).Fits seat := by
  obtain ⟨⟨h₁, h₂, h₃, h₄⟩, hheld, ⟨c₁, c₂, c₃⟩, hb⟩ := h
  refine ⟨⟨h₁, h₂, h₃, fun p => ?_⟩, hheld, ⟨c₁, c₂, c₃⟩, hb⟩
  simpa using h₄ p

end

end Sys2Proof.Machine
end

section
/-! SUPPORT. The law of the ports (R12, R18): what each change of a port does to it, and that every row keeps it. -/

namespace Sys2Proof.Machine

/-! ### One port -/

/-- A relaying port is timed while it waits for its host, may expect an address, and has its clock held for a byte alone. -/
theorem Ctx.relay_traits {c : Ctx} (h : c.isRelay = true) :
    c.timed = true ∧ c.mayExpectAddress = true ∧ c.holdsClock = false := by
  cases c <;> simp [Ctx.isRelay] at h <;> exact ⟨rfl, rfl, rfl⟩

section
variable {h : HostPort}

theorem HostPort.Lawful.toIdle (hl : h.Lawful) (exp : Bool) : (h.toIdle exp).Lawful := by
  obtain ⟨-, -, -, -, hcount⟩ := hl
  exact ⟨rfl, by simp [HostPort.toIdle], rfl, fun _ => rfl, hcount⟩

theorem HostPort.Lawful.record (hl : h.Lawful) (r : Reason) (t : Transfer) : (h.record r t).Lawful := by
  obtain ⟨hclock, hbyte, htimer, haddr, -⟩ := hl
  exact ⟨hclock, hbyte, htimer, haddr, min_le_left _ _⟩

theorem HostPort.Lawful.enter (hl : h.Lawful) {c : Ctx} (hc : c.holdsClock = true) : (h.enter c).Lawful := by
  obtain ⟨-, -, -, -, hcount⟩ := hl
  refine ⟨by simp [HostPort.enter, hc], by simp [HostPort.enter], ?_, by simp [HostPort.enter], hcount⟩
  simp [HostPort.enter, Timer.isRunning]

/-- A port that waits for its host has its clock released and its abandon timer running, before and after (R18). -/
theorem HostPort.Lawful.await (hl : h.Lawful) (hc : h.clockHeld = false) (ht : h.ctx.timed = true) (acts : List UpAct) :
    (h.await acts).Lawful := by
  obtain ⟨hclock, hbyte, -, haddr, hcount⟩ := hl
  exact ⟨hclock, hbyte, by simp [HostPort.await, hc, ht]; rfl, haddr, hcount⟩

theorem HostPort.Lawful.upstream (hl : h.Lawful) (acts : List UpAct) : ({ h with upstream := acts }).Lawful := hl

/-- A port with its clock released has no byte in hand (R12). -/
theorem HostPort.Lawful.released (hl : h.Lawful) (hc : h.clockHeld = false) :
    h.byteInHand = false ∧ h.ctx.holdsClock = false := by
  obtain ⟨hclock, -⟩ := hl
  rw [hc] at hclock
  exact (Bool.or_eq_false_iff.1 hclock.symm).symm

/-- A port that is relaying takes a byte in hand (R13, R14). -/
theorem HostPort.Lawful.hold (hl : h.Lawful) (hr : h.ctx.isRelay = true) (he : h.addrExpected = false) : h.hold.Lawful := by
  obtain ⟨-, -, -, -, hcount⟩ := hl
  exact ⟨by simp [HostPort.hold], by simp [HostPort.hold, hr, he], by simp [HostPort.hold, Timer.isRunning],
    by simp [HostPort.hold, he], hcount⟩

/-- A relayed byte is answered (R13, R14). -/
theorem HostPort.Lawful.answer (hl : h.Lawful) (hr : h.ctx.isRelay = true) (acts : List UpAct) :
    (h.answer acts).Lawful := by
  obtain ⟨-, -, -, -, hcount⟩ := hl
  obtain ⟨htimed, hexp, hholds⟩ := Ctx.relay_traits hr
  exact ⟨by simp [HostPort.answer, hholds], by simp [HostPort.answer], by simp [HostPort.answer, htimed]; rfl,
    fun _ => hexp, hcount⟩

/-- A port in ADDRESSING is answered for its address (R79). -/
theorem HostPort.Lawful.addressAcknowledged (hl : h.Lawful) {t u : Transfer} (hc : h.ctx = .addressing u) :
    (h.addressAcknowledged t).Lawful := by
  obtain ⟨-, -, -, haddr, hcount⟩ := hl
  have hexp : h.addrExpected = false := by simpa [hc, Ctx.mayExpectAddress] using haddr
  unfold HostPort.addressAcknowledged
  split
  · exact ⟨rfl, by simp [HostPort.answer], rfl, fun _ => rfl, hcount⟩
  · exact ⟨rfl, fun _ => ⟨rfl, hexp⟩, rfl, by simp [HostPort.hold, hexp], hcount⟩

/-- A relaying port is broken out of its transfer (R16). -/
theorem HostPort.Lawful.breakOff (hl : h.Lawful) (hr : h.ctx.isRelay = true) (t : Transfer) : (h.breakOff t).Lawful := by
  obtain ⟨hclock, hbyte, htimer, haddr, hcount⟩ := hl
  obtain ⟨htimed, -, -⟩ := Ctx.relay_traits hr
  have hbroken : ({ h with ctx := .broken t, byteInHand := false, clockHeld := false, upstream := [],
                           abandon := if h.clockHeld then abandonStart else h.abandon } : HostPort).Lawful := by
    refine ⟨rfl, by simp, ?_, fun _ => rfl, hcount⟩
    cases hk : h.clockHeld
    · simp only [hk, htimed, Bool.not_false, Bool.and_true] at htimer
      simpa [Ctx.timed] using htimer
    · rfl
  unfold HostPort.breakOff
  dsimp only
  split
  · split
    · exact hbroken.record _ _
    · exact hbroken
  · exact hbroken

/-- A repeated start reaches a relaying port (R13, R14). -/
theorem HostPort.Lawful.expectAddress (hl : h.Lawful) (hc : h.clockHeld = false) (hr : h.ctx.isRelay = true) :
    ({ h with addrExpected := true }.await []).Lawful := by
  obtain ⟨hbyte, -⟩ := hl.released hc
  obtain ⟨hclock, -, -, -, hcount⟩ := hl
  obtain ⟨htimed, hexp, -⟩ := Ctx.relay_traits hr
  exact ⟨hclock, by simp [HostPort.await, hbyte], by simp [HostPort.await, hc, htimed]; rfl, fun _ => hexp, hcount⟩

end

/-! ### Ports changed in a state -/

theorem PortLaw.of_ports {s t : State} (h : PortLaw s) (ht : t.ports = s.ports) : PortLaw t := by
  intro p
  rw [ht]
  exact h p

theorem PortLaw.onPort {s : State} (h : PortLaw s) {p : Port} {f : HostPort → HostPort} (hf : (f s.ports[p]).Lawful) :
    PortLaw (s.onPort p f) := by
  intro q
  by_cases hq : p = q
  · subst hq
    rw [State.onPort_ports, tabUpd_self]
    exact hf
  · rw [State.onPort_ports, tabUpd_other _ _ _ _ hq]
    exact h q

section
variable {s : State}

theorem PortLaw.toIdle (h : PortLaw s) (p : Port) (exp : Bool) : PortLaw (s.onPort p (HostPort.toIdle exp)) :=
  h.onPort ((h p).toIdle exp)

theorem PortLaw.refuse (h : PortLaw s) (p : Port) (r : Reason) (t : Transfer) : PortLaw (s.refuse p r t) :=
  h.onPort (((h p).toIdle false).record r t)

theorem PortLaw.refuseWaiter (h : PortLaw s) (m : Seg) (r : Reason) (p : Port) : PortLaw (s.refuseWaiter m r p) := by
  unfold State.refuseWaiter
  split
  · exact PortLaw.refuse (s := s.stopWait m p) h p r _
  · exact h

theorem PortLaw.refuseAll (m : Seg) (r : Reason) (ps : List Port) (h : PortLaw s) : PortLaw (State.refuseAll m r ps s) := by
  induction ps generalizing s with
  | nil => exact h
  | cons p ps ih => exact ih (h.refuseWaiter m r p)

theorem PortLaw.grant (h : PortLaw s) (m : Seg) (p : Port) (t : Transfer) : PortLaw (s.grant m p t) :=
  PortLaw.of_ports (PortLaw.onPort (s := s.setSegState m (.active p)) h ((h p).enter (c := .addressing t) rfl)) rfl

theorem PortLaw.enqueue (h : PortLaw s) (m : Seg) (p : Port) (t : Transfer) : PortLaw (s.enqueue m p t) :=
  PortLaw.onPort (s := s.onSeg m _) h ((h p).enter (c := .waiting t) rfl)

theorem PortLaw.arrive (h : PortLaw s) (p : Port) (t : Transfer) : PortLaw (s.arrive p t) := by
  unfold State.arrive
  dsimp only
  split
  · exact PortLaw.grant (s := s.startWait _ p) h _ p t
  · exact PortLaw.enqueue (s := s.startWait _ p) h _ p t
  · split
    · exact PortLaw.enqueue (s := s.startWait _ p) h _ p t
    · exact h.refuse p _ t
  · exact h.refuse p _ t
  · exact h.refuse p _ t

theorem PortLaw.serve (m : Seg) (ps : List Port) (h : PortLaw s) : PortLaw (State.serve m ps s) := by
  induction ps generalizing s with
  | nil => exact h
  | cons p rest ih =>
    unfold State.serve
    dsimp only
    split
    · split
      · exact PortLaw.grant (s := s.onSeg m _) h m p _
      · exact ih (PortLaw.refuseWaiter (s := s.onSeg m _) h m _ p)
    · exact ih h

theorem PortLaw.handOver (h : PortLaw s) (m : Seg) : PortLaw (s.handOver m) := by
  unfold State.handOver
  split
  · exact PortLaw.refuseAll m _ _ (s := s.onSeg m _) h
  · exact h.serve m _

theorem PortLaw.releaseBy (h : PortLaw s) (m : Seg) (p : Port) (f : Engine → Engine) : PortLaw (s.releaseBy m p f) :=
  PortLaw.handOver (s := (s.onEngine m f).stopWait m p) h m

theorem PortLaw.release (h : PortLaw s) (m : Seg) (p : Port) : PortLaw (s.release m p) := h.releaseBy m p _

theorem PortLaw.endRelay (h : PortLaw s) (m : Seg) (p : Port) : PortLaw (s.endRelay m p) := (h.toIdle p false).release m p

theorem PortLaw.breakPort (h : PortLaw s) {p : Port} (hr : s.ports[p].ctx.isRelay = true) (m : Seg) (t : Transfer)
    (c : BreakCause) : PortLaw (s.breakPort m p t c) :=
  PortLaw.of_ports (h.onPort ((h p).breakOff hr t)) rfl

theorem PortLaw.beginRecovery (h : PortLaw s) (m : Seg) (b : Option Port) : PortLaw (s.beginRecovery m b) := h

theorem State.postOutcome_ports (s : State) (m : Seg) (k : NoticeKind) : (s.postOutcome m k).ports = s.ports := by
  unfold State.postOutcome
  generalize s.recoveryAudience m = ps
  induction ps generalizing s with
  | nil => rfl
  | cons p ps ih => exact (ih _).trans rfl

end

end Sys2Proof.Machine
end

section
/-! SUPPORT. The law of the relay path in a state, segment by segment, and what the shared operations of the arbiters do to
it: a port granted, queued, turned away, a queue served, a segment handed over and released (R58, R62, R63). -/

namespace Sys2Proof.Machine

open Function (update update_apply)

/-! ### One segment -/

/-- R56, R57 and R75 for one segment, by the seats at it. -/
structure State.Orderly (s : State) (m : Seg) : Prop where
  arbiter : s.segs[m].Fits (s.seats m)
  engine : s.engines[m].Fits (s.duty m)

theorem relayLaw_iff (s : State) : RelayLaw s ↔ PortLaw s ∧ ∀ m, s.Orderly m := by
  unfold RelayLaw SegmentLaw EngineLaw
  rw [← forall_and]
  refine and_congr_right fun _ => forall_congr' fun m => ?_
  rw [segLawful_iff]
  constructor
  · rintro ⟨ha, he⟩
    exact ⟨ha, (engLawful_iff ha.held).1 he⟩
  · rintro ⟨ha, he⟩
    exact ⟨ha, (engLawful_iff ha.held).2 he⟩

/-- No other segment is touched: not its arbiter, not its engine, not the seats at it. -/
def ElsewhereSame (m : Seg) (s t : State) : Prop :=
  ∀ k : Seg, k ≠ m → t.segs[k] = s.segs[k] ∧ t.engines[k] = s.engines[k] ∧ t.seats k = s.seats k

theorem ElsewhereSame.refl (m : Seg) (s : State) : ElsewhereSame m s s := fun _ _ => ⟨rfl, rfl, rfl⟩

theorem ElsewhereSame.trans {m : Seg} {s t u : State} (h : ElsewhereSame m s t) (h' : ElsewhereSame m t u) :
    ElsewhereSame m s u := by
  intro k hk
  obtain ⟨h₁, h₂, h₃⟩ := h k hk
  obtain ⟨h₁', h₂', h₃'⟩ := h' k hk
  exact ⟨h₁'.trans h₁, h₂'.trans h₂, h₃'.trans h₃⟩

/-- A law-keeping change at one segment. -/
theorem RelayLaw.of_segment {s t : State} {m : Seg} (h : RelayLaw s) (hports : PortLaw t) (helse : ElsewhereSame m s t)
    (hm : t.Orderly m) : RelayLaw t := by
  rw [relayLaw_iff] at h ⊢
  refine ⟨hports, fun k => ?_⟩
  by_cases hk : k = m
  · exact hk ▸ hm
  · obtain ⟨hsegs, hengines, hseats⟩ := helse k hk
    obtain ⟨ha, he⟩ := h.2 k
    refine ⟨by rwa [hsegs, hseats], ?_⟩
    rw [State.duty, hsegs, hseats, hengines]
    exact he

/-- A change outside ports, arbiters and engines. -/
theorem RelayLaw.of_same {s t : State} (h : RelayLaw s) (hports : t.ports = s.ports) (hsegs : t.segs = s.segs)
    (hengines : t.engines = s.engines) : RelayLaw t := by
  obtain ⟨hp, hs⟩ := (relayLaw_iff s).1 h
  have hseats : t.seats = s.seats := by
    unfold State.seats
    rw [hports]
  refine (relayLaw_iff t).2 ⟨hp.of_ports hports, fun m => ?_⟩
  obtain ⟨ha, he⟩ := hs m
  refine ⟨by rwa [hsegs, hseats], ?_⟩
  rw [State.duty, hsegs, hseats, hengines]
  exact he

/-! ### Seats after a change -/

theorem State.onPort_seats (s : State) (p : Port) (f : HostPort → HostPort) (m : Seg) :
    (s.onPort p f).seats m = update (s.seats m) p ((f s.ports[p]).seat m) := by
  funext q
  rw [Function.update_apply]
  unfold State.seats
  split
  · subst_vars
    rw [State.onPort_ports, tabUpd_self]
  · rw [State.onPort_ports, tabUpd_other _ _ _ _ (Ne.symm ‹_›)]

theorem State.onSeg_self (s : State) (m : Seg) (f : Arbiter → Arbiter) : (s.onSeg m f).segs[m] = f s.segs[m] :=
  tabUpd_self _ _ _

theorem State.onEngine_self (s : State) (m : Seg) (f : Engine → Engine) : (s.onEngine m f).engines[m] = f s.engines[m] :=
  tabUpd_self _ _ _

theorem ElsewhereSame.onSeg (s : State) (m : Seg) (f : Arbiter → Arbiter) : ElsewhereSame m s (s.onSeg m f) :=
  fun _ hk => ⟨tabUpd_other _ _ _ _ (Ne.symm hk), rfl, rfl⟩

theorem ElsewhereSame.onEngine (s : State) (m : Seg) (f : Engine → Engine) : ElsewhereSame m s (s.onEngine m f) :=
  fun _ hk => ⟨rfl, tabUpd_other _ _ _ _ (Ne.symm hk), rfl⟩

/-- A port that has a seat at `m`, or none, and takes one at `m`, or none, changes nothing elsewhere. -/
theorem ElsewhereSame.onPort {s : State} {m : Seg} {p : Port} {f : HostPort → HostPort}
    (h : ∀ k ≠ m, s.seats k p = .away) (hf : ∀ k ≠ m, (f s.ports[p]).seat k = .away) :
    ElsewhereSame m s (s.onPort p f) := by
  intro k hk
  refine ⟨rfl, rfl, ?_⟩
  rw [State.onPort_seats, hf k hk, ← h k hk, Function.update_eq_self]

/-- A port that has a seat at `m` has none elsewhere. -/
theorem State.seats_elsewhere {s : State} {m : Seg} {p : Port} (h : s.seats m p ≠ .away) (k : Seg) (hk : k ≠ m) :
    s.seats k p = .away :=
  HostPort.seat_elsewhere h hk

theorem HostPort.seat_untransferred {h : HostPort} (hc : h.ctx.transfer? = none) (m : Seg) : h.seat m = .away := by
  unfold HostPort.seat
  cases hx : h.ctx <;> simp [hx, Ctx.transfer?] at hc ⊢

/-! ### A port granted or queued (R58) -/

theorem HostPort.seat_enter_addressing (h : HostPort) (t : Transfer) :
    (h.enter (.addressing t)).seat t.snap.seg = .addressing (t.snap.target, t.dir) := by
  simp [HostPort.seat, HostPort.enter]

theorem HostPort.seat_enter_waiting (h : HostPort) (t : Transfer) : (h.enter (.waiting t)).seat t.snap.seg = .waiting := by
  simp [HostPort.seat, HostPort.enter]

theorem State.grant_segs (s : State) (m : Seg) (p : Port) (t : Transfer) :
    (s.grant m p t).segs[m] = { s.segs[m] with state := .active p } :=
  tabUpd_self _ _ _

theorem State.grant_seats (s : State) (p : Port) (t : Transfer) : (s.grant t.snap.seg p t).seats t.snap.seg =
    update (s.seats t.snap.seg) p (.addressing (t.snap.target, t.dir)) := by
  rw [← HostPort.seat_enter_addressing s.ports[p]]
  exact State.onPort_seats _ _ _ _

theorem State.grant_engines (s : State) (m : Seg) (p : Port) (t : Transfer) :
    (s.grant m p t).engines[m] = s.engines[m].order p (some (t.snap.target, t.dir)) s.segs[m].shared := by
  have htarget : ((s.setSegState m (.active p)).onPort p (HostPort.enter (.addressing t))).targetOf p =
      some (t.snap.target, t.dir) := by
    unfold State.targetOf
    rw [State.onPort_ports, tabUpd_self]
    rfl
  have hshared : ((s.setSegState m (.active p)).onPort p (HostPort.enter (.addressing t))).segs[m].shared =
      s.segs[m].shared := by
    rw [State.onPort_segs, State.setSegState_segs, tabUpd_self]
  unfold State.grant
  rw [State.orderPhase_engines, tabUpd_self, htarget, hshared]
  rfl

theorem State.grant_elsewhere {s : State} {p : Port} {t : Transfer} (h : ∀ k ≠ t.snap.seg, s.seats k p = .away) :
    ElsewhereSame t.snap.seg s (s.grant t.snap.seg p t) := by
  have hport : ElsewhereSame t.snap.seg (s.setSegState t.snap.seg (.active p)) _ :=
    ElsewhereSame.onPort (f := HostPort.enter (.addressing t)) h fun k hk =>
      HostPort.seat_elsewhere (m := t.snap.seg) (by rw [HostPort.seat_enter_addressing]; simp) hk
  exact ((ElsewhereSame.onSeg s _ _).trans hport).trans (ElsewhereSame.onEngine _ _ _)

/-- A port changes without a change of its seats. -/
theorem RelayLaw.onPort {s : State} (h : RelayLaw s) {p : Port} {f : HostPort → HostPort} (hf : (f s.ports[p]).Lawful)
    (hseat : ∀ k, (f s.ports[p]).seat k = s.seats k p) : RelayLaw (s.onPort p f) := by
  obtain ⟨hports, hsegs⟩ := (relayLaw_iff s).1 h
  refine (relayLaw_iff _).2 ⟨hports.onPort hf, fun m => ?_⟩
  have hseats : (s.onPort p f).seats m = s.seats m := by
    rw [State.onPort_seats, hseat, Function.update_eq_self]
  obtain ⟨ha, he⟩ := hsegs m
  refine ⟨by rwa [hseats], ?_⟩
  rw [State.duty, hseats]
  exact he

/-- A port without a seat, turned away (R20). -/
theorem RelayLaw.refuse {s : State} (h : RelayLaw s) {p : Port} (hp : ∀ k, s.seats k p = .away) (r : Reason) (t : Transfer) :
    RelayLaw (s.refuse p r t) :=
  h.onPort (((h.1 p).toIdle false).record r t) fun k => (hp k).symm

/-- The duty of an engine whose segment a port has just been granted. -/
theorem State.grant_duty (s : State) (p : Port) (t : Transfer) :
    (s.grant t.snap.seg p t).duty t.snap.seg = .serving p (.addressing (t.snap.target, t.dir)) := by
  rw [State.duty, State.grant_segs, State.grant_seats]
  simp [SegState.duty]

/-- A port comes to an IDLE segment (R58). -/
theorem RelayLaw.take {s : State} (h : RelayLaw s) {p : Port} {t : Transfer} (hp : ∀ k, s.seats k p = .away)
    (hst : s.segs[t.snap.seg].state = .idle) : RelayLaw ((s.startWait t.snap.seg p).grant t.snap.seg p t) := by
  obtain ⟨hports, hsegs⟩ := (relayLaw_iff s).1 h
  obtain ⟨ha, he⟩ := hsegs t.snap.seg
  have hfree : s.engines[t.snap.seg].Fits .free := by
    have hduty : s.duty t.snap.seg = .free := SegState.duty_free.2 (.inl hst)
    rwa [hduty] at he
  have helse : ElsewhereSame t.snap.seg s ((s.startWait t.snap.seg p).grant t.snap.seg p t) :=
    (ElsewhereSame.onSeg s _ _).trans (State.grant_elsewhere fun k _ => hp k)
  refine h.of_segment (PortLaw.grant (s := s.startWait _ p) hports _ p t) helse ⟨?_, ?_⟩
  · rw [State.grant_segs, State.grant_seats, State.startWait_segs, tabUpd_self]
    exact ha.take hst (hp _) _ _
  · rw [State.grant_duty, State.grant_engines]
    exact hfree.released.order p _ _

/-- A port comes to a segment in use, and waits (R58). -/
theorem RelayLaw.enqueue {s : State} (h : RelayLaw s) {p : Port} {t : Transfer} (hp : ∀ k, s.seats k p = .away)
    (hst : (∃ q, s.segs[t.snap.seg].state = .active q) ∨ ∃ r, s.segs[t.snap.seg].state = .recovering r)
    (hroom : s.segs[t.snap.seg].queue.length < 3) : RelayLaw ((s.startWait t.snap.seg p).enqueue t.snap.seg p t) := by
  obtain ⟨hports, hsegs⟩ := (relayLaw_iff s).1 h
  obtain ⟨ha, he⟩ := hsegs t.snap.seg
  have hseats (k : Seg) : ((s.startWait t.snap.seg p).enqueue t.snap.seg p t).seats k =
      update (s.seats k) p ((s.ports[p].enter (.waiting t)).seat k) := State.onPort_seats _ _ _ _
  have hsegs : ((s.startWait t.snap.seg p).enqueue t.snap.seg p t).segs[t.snap.seg] =
      { s.segs[t.snap.seg] with queue := s.segs[t.snap.seg].queue ++ [p]
                                waits := tabUpd s.segs[t.snap.seg].waits p (fun _ => Timer.start s.segs[t.snap.seg].waitLimit) } := by
    show ((s.startWait t.snap.seg p).onSeg t.snap.seg (fun a => { a with queue := a.queue ++ [p] })).segs[t.snap.seg] = _
    rw [State.onSeg_self, State.startWait_segs, tabUpd_self]
  have helse : ElsewhereSame t.snap.seg s ((s.startWait t.snap.seg p).enqueue t.snap.seg p t) := by
    refine ((ElsewhereSame.onSeg s _ _).trans (ElsewhereSame.onSeg _ _ _)).trans (ElsewhereSame.onPort (fun k _ => hp k) ?_)
    exact fun k hk => HostPort.seat_elsewhere (m := t.snap.seg) (by rw [HostPort.seat_enter_waiting]; simp) hk
  refine h.of_segment (PortLaw.enqueue (s := s.startWait _ p) hports _ p t) helse ⟨?_, ?_⟩
  · rw [hsegs, hseats, HostPort.seat_enter_waiting]
    exact ha.join hst (hp _) hroom _
  · have hduty : ((s.startWait t.snap.seg p).enqueue t.snap.seg p t).duty t.snap.seg = s.duty t.snap.seg := by
      rw [State.duty, hsegs, hseats]
      exact SegState.duty_update (ha.ne_holder (.inl (hp _)))
    rw [hduty]
    exact he

/-- An accepted transfer of a port without a seat leaves the law in force (R58). -/
theorem RelayLaw.arrive {s : State} (h : RelayLaw s) {p : Port} {t : Transfer} (hp : ∀ k, s.seats k p = .away) :
    RelayLaw (s.arrive p t) := by
  cases hst : s.segs[t.snap.seg].state with
  | idle =>
    rw [State.arrive_idle hst]
    exact h.take hp hst
  | active q =>
    rw [State.arrive_active hst]
    exact h.enqueue hp (.inl ⟨q, hst⟩) ((((relayLaw_iff s).1 h).2 _).arbiter.room hst (hp _))
  | recovering r =>
    rw [State.arrive_recovering hst]
    split
    · exact h.enqueue hp (.inr ⟨r, hst⟩) ‹_›
    · exact h.refuse hp _ t
  | disabled =>
    simp only [State.arrive, hst]
    exact h.refuse hp _ t
  | fault =>
    simp only [State.arrive, hst]
    exact h.refuse hp _ t

/-! ### A port turned away by its segment (R60, R63, R66) -/

theorem State.refuseWaiter_seats (s : State) (m : Seg) (r : Reason) (p : Port) (k : Seg) :
    (s.refuseWaiter m r p).seats k = update (s.seats k) p .away := by
  unfold State.refuseWaiter
  split
  · exact State.onPort_seats _ _ _ _
  · rename_i ht
    have haway : (s.stopWait m p).seats k p = .away := HostPort.seat_untransferred ht k
    rw [← haway]
    exact (Function.update_eq_self _ _).symm

theorem State.refuseWaiter_segs (s : State) (m : Seg) (r : Reason) (p : Port) :
    (s.refuseWaiter m r p).segs = (s.stopWait m p).segs := by
  unfold State.refuseWaiter
  split <;> rfl

theorem State.refuseWaiter_elsewhere {s : State} {m : Seg} {p : Port} (hp : ∀ k ≠ m, s.seats k p = .away) (r : Reason) :
    ElsewhereSame m s (s.refuseWaiter m r p) := by
  intro k hk
  rw [State.refuseWaiter_segs, (s.refuseWaiter_frame m r p).1, State.refuseWaiter_seats, ← hp k hk, Function.update_eq_self]
  exact ⟨tabUpd_other _ _ _ _ (Ne.symm hk), rfl, rfl⟩

/-- Everyone of a list is turned away: no port of it has a seat left. -/
theorem State.refuseAll_seats (m : Seg) (r : Reason) (ps : List Port) (s : State) (k : Seg) (q : Port) :
    (State.refuseAll m r ps s).seats k q = if q ∈ ps then .away else s.seats k q := by
  induction ps generalizing s with
  | nil => rfl
  | cons p ps ih =>
    have hcons := ih (s.refuseWaiter m r p)
    rw [State.refuseWaiter_seats, Function.update_apply] at hcons
    refine hcons.trans ?_
    by_cases hq : q = p <;> simp [hq]

/-- Everyone of a list is turned away: of the segment's arbiter the wait timers stop, and nothing else changes. -/
theorem State.refuseAll_segs (m : Seg) (r : Reason) (ps : List Port) (s : State) :
    ∃ w : Vector Timer 4, (∀ q : Port, w[q] = if q ∈ ps then .stopped else s.segs[m].waits[q]) ∧
      (State.refuseAll m r ps s).segs[m] = { s.segs[m] with waits := w } := by
  induction ps generalizing s with
  | nil => exact ⟨s.segs[m].waits, fun _ => rfl, rfl⟩
  | cons p ps ih =>
    have hstop : (s.refuseWaiter m r p).segs[m] =
        { s.segs[m] with waits := tabUpd s.segs[m].waits p (fun _ => .stopped) } := by
      rw [State.refuseWaiter_segs]
      exact tabUpd_self _ _ _
    obtain ⟨w, hw, hsegs⟩ := ih (s.refuseWaiter m r p)
    rw [hstop] at hw hsegs
    refine ⟨w, fun q => ?_, hsegs⟩
    rw [hw]
    by_cases hq : p = q
    · subst hq; simp
    · simp [tabUpd_other _ _ _ _ hq, Ne.symm hq]

theorem State.refuseAll_elsewhere {m : Seg} {ps : List Port} {s : State} (hp : ∀ q ∈ ps, ∀ k ≠ m, s.seats k q = .away)
    (r : Reason) : ElsewhereSame m s (State.refuseAll m r ps s) := by
  induction ps generalizing s with
  | nil => exact ElsewhereSame.refl m s
  | cons p ps ih =>
    refine (State.refuseWaiter_elsewhere (hp p (by simp)) r).trans (ih fun q hq k hk => ?_)
    rw [State.refuseWaiter_seats, Function.update_apply, hp q (by simp [hq]) k hk, ite_self]

/-! ### The queue served, and the segment handed over (R63) -/

/-- What a hand-over of segment `m` leaves: an arbiter in order, and its engine as it was for nobody, or ordered to serve the
new holder. -/
structure HandedOver (m : Seg) (s t : State) : Prop where
  elsewhere : ElsewhereSame m s t
  arbiter : t.segs[m].Fits (t.seats m)
  engine : t.duty m = .free ∧ t.engines[m] = s.engines[m] ∨
    ∃ p x shared, t.duty m = .serving p (.addressing x) ∧ t.engines[m] = s.engines[m].order p (some x) shared
  stays : ∀ q, s.seats m q = .away → t.seats m q = .away

/-- A change before a hand-over that leaves the engine. -/
theorem HandedOver.of_before {m : Seg} {s s' t : State} (h : HandedOver m s' t) (helse : ElsewhereSame m s s')
    (hengines : s'.engines = s.engines) (hstays : ∀ q, s.seats m q = .away → s'.seats m q = .away) : HandedOver m s t :=
  ⟨helse.trans h.elsewhere, h.arbiter, hengines ▸ h.engine, fun q hq => h.stays q (hstays q hq)⟩

/-- The queue served from its head (R63 ways 2 and 3). -/
theorem State.serve_handedOver {m : Seg} {ps : List Port} {s : State} (h : s.segs[m].Vacated (s.seats m))
    (hq : s.segs[m].queue = ps) (hd : s.segs[m].disablePending = false) : HandedOver m s (State.serve m ps s) := by
  induction ps generalizing s with
  | nil =>
    rw [State.serve_nil]
    have hfits := h.idle hq hd
    refine ⟨ElsewhereSame.onSeg s m _, ?_, .inl ⟨?_, rfl⟩, fun _ hq => hq⟩
    · rw [State.onSeg_self]
      exact hfits
    · rw [State.duty, State.onSeg_self]
      rfl
  | cons p rest ih =>
    have hwaiting : s.seats m p = .waiting := (h.queue.queued p).1 (hq ▸ List.mem_cons_self)
    obtain ⟨t, ht, rfl⟩ := State.seats_waiting.1 hwaiting
    have helse : ElsewhereSame t.snap.seg s (s.onSeg t.snap.seg (fun a => { a with queue := rest })) := ElsewhereSame.onSeg s _ _
    have haway : ∀ k ≠ t.snap.seg, s.seats k p = .away := State.seats_elsewhere (by simp [hwaiting])
    cases hc : s.checkAtGrant p t.dir t.snap with
    | none =>
      rw [State.serve_granted ht hc]
      refine ⟨helse.trans (State.grant_elsewhere haway), ?_, .inr ⟨p, _, _, State.grant_duty _ _ _, State.grant_engines _ _ _ _⟩,
        fun q haway' => ?_⟩
      · rw [State.grant_segs, State.grant_seats, State.onSeg_self]
        exact h.granted hq _
      · have hne : q ≠ p := by
          rintro rfl
          exact Seat.noConfusion (hwaiting.symm.trans haway')
        rw [State.grant_seats, Function.update_of_ne hne]
        exact haway'
    | some r =>
      rw [State.serve_refused ht hc]
      have hsegs : ((s.onSeg t.snap.seg (fun a => { a with queue := rest })).refuseWaiter t.snap.seg r p).segs[t.snap.seg] =
          { s.segs[t.snap.seg] with queue := rest, waits := tabUpd s.segs[t.snap.seg].waits p (fun _ => .stopped) } := by
        rw [State.refuseWaiter_segs, State.stopWait_segs, tabUpd_self, State.onSeg_self]
      refine (ih ?_ ?_ ?_).of_before (helse.trans (State.refuseWaiter_elsewhere (s := s.onSeg _ _) haway r))
        (State.refuseWaiter_frame _ _ _ _).1 fun q hq => ?_
      · rw [hsegs, State.refuseWaiter_seats]
        exact h.refused hq
      · rw [hsegs]
      · rw [hsegs]
        exact hd
      · rw [State.refuseWaiter_seats, Function.update_apply]
        split
        · rfl
        · exact hq

/-- Every queued port turned away, and the segment closed to further use (R63 way 1, R66): the list `ps` names at least the
ports with a seat at it. -/
theorem State.turnAllAway_fits {m : Seg} {ps : List Port} {s : State} {f : Arbiter → Arbiter} (r : Reason)
    (hps : ∀ q, s.seats m q ≠ .away → q ∈ ps) (hwaits : (f s.segs[m]).waits = s.segs[m].waits)
    (htimed : ∀ q, s.segs[m].waits[q].isRunning = (s.seats m q).timed)
    (hst : (f s.segs[m]).state = .disabled ∨ (f s.segs[m]).state = .fault) (hq : (f s.segs[m]).queue = [])
    (hc : (f s.segs[m]).Configured) (hb : (f s.segs[m]).Bounded) :
    (State.refuseAll m r ps (s.onSeg m f)).segs[m].Fits ((State.refuseAll m r ps (s.onSeg m f)).seats m) ∧
      (State.refuseAll m r ps (s.onSeg m f)).segs[m].state = (f s.segs[m]).state := by
  obtain ⟨w, hw, hsegs⟩ := State.refuseAll_segs m r ps (s.onSeg m f)
  rw [State.onSeg_self] at hw hsegs
  rw [hsegs]
  refine ⟨Arbiter.fits_empty hst hq (fun q => ?_) (fun q => ?_) ⟨hc.still, hc.off, hc.on⟩ hb, rfl⟩
  · show w[q] = _
    rw [hw, hwaits]
    split
    · rfl
    · have haway : s.seats m q = .away := by
        by_contra hne
        exact absurd (hps q hne) ‹_›
      have hstopped : s.segs[m].waits[q].isRunning = false := (htimed q).trans (by rw [haway]; rfl)
      by_contra hne
      exact absurd ((Timer.isRunning_iff _).2 hne) (by rw [hstopped]; exact Bool.false_ne_true)
  · rw [State.refuseAll_seats]
    split
    · rfl
    · by_contra hne
      exact absurd (hps q hne) ‹_›

/-- The pending disable takes effect (R63 way 1). -/
theorem State.disableNow_handedOver {m : Seg} {s : State} (h : s.segs[m].Vacated (s.seats m))
    (hd : s.segs[m].disablePending = true) : HandedOver m s (s.disableNow m) := by
  have hps (q : Port) (hq : s.seats m q ≠ .away) : q ∈ s.segs[m].queue :=
    (h.queue.queued q).2 ((h.nobody q).resolve_left hq)
  have hoff : s.segs[m].enable = false := by
    have hpending := h.pending
    rw [hd] at hpending
    simpa using hpending
  have hdone := State.turnAllAway_fits (f := fun a => { a with state := .disabled, disablePending := false, queue := [] })
    .segmentDisabled hps rfl h.queue.timed (.inl rfl) rfl ⟨fun _ => ⟨rfl, rfl⟩, fun _ => hoff, fun hne => absurd rfl hne⟩
    h.bounded
  obtain ⟨hfits, hstate⟩ := hdone
  refine ⟨(ElsewhereSame.onSeg s m _).trans (State.refuseAll_elsewhere (fun q hq => ?_) _), hfits, .inl ⟨?_, ?_⟩, fun q hq => ?_⟩
  · have hwaiting := (h.queue.queued q).1 hq
    exact State.seats_elsewhere (s := s) (by rw [hwaiting]; simp)
  · exact SegState.duty_free.2 (.inr hstate)
  · exact congrArg (fun v : Vector Engine 8 => v[m]) (State.refuseAll_frame _ _ _ _).1
  · refine (State.refuseAll_seats _ _ _ _ m q).trans ?_
    split
    · rfl
    · exact hq

/-- The segment handed over (R63). -/
theorem State.handOver_handedOver {m : Seg} {s : State} (h : s.segs[m].Vacated (s.seats m)) :
    HandedOver m s (s.handOver m) := by
  cases hd : s.segs[m].disablePending with
  | true =>
    rw [State.handOver_disabled hd]
    exact State.disableNow_handedOver h hd
  | false =>
    rw [State.handOver_serves hd]
    exact State.serve_handedOver h rfl hd

/-- After a hand-over the engine serves the new holder, and otherwise gives up a line check that is left (R63, R93). -/
theorem HandedOver.settled {m : Seg} {s t : State} (h : HandedOver m s t) (he : s.engines[m].Fits .released) :
    ElsewhereSame m s (t.onEngine m Engine.settle) ∧ (t.onEngine m Engine.settle).Orderly m := by
  obtain ⟨helse, harb, hengine, -⟩ := h
  refine ⟨helse.trans (ElsewhereSame.onEngine t m _), harb, ?_⟩
  rw [State.onEngine_self]
  show (t.engines[m].settle).Fits (t.duty m)
  obtain ⟨hduty, hsame⟩ | ⟨p, x, shared, hduty, horder⟩ := hengine
  · rw [hduty, hsame]
    exact he.settle
  · have hfits := he.order p x shared
    rw [hduty, horder, hfits.settle_serving]
    exact hfits

/-- After a hand-over under an engine in order. -/
theorem HandedOver.orderly {m : Seg} {s t : State} (h : HandedOver m s t) (he : s.engines[m].Fits .free) : t.Orderly m := by
  refine ⟨h.arbiter, ?_⟩
  obtain ⟨hduty, hsame⟩ | ⟨p, x, shared, hduty, horder⟩ := h.engine
  · rw [hduty, hsame]
    exact he
  · rw [hduty, horder]
    exact he.released.order p x shared

/-! ### A segment released (R62) -/

/-- Port `p` has left its seat at segment `m`, and nothing else has changed for any segment. -/
structure Departed (m : Seg) (p : Port) (s t : State) : Prop where
  elsewhere : ElsewhereSame m s t
  arbiter : t.segs[m] = s.segs[m]
  engine : t.engines[m] = s.engines[m]
  seats : t.seats m = update (s.seats m) p .away

theorem Departed.onPort {m : Seg} {p : Port} {s : State} {g : HostPort → HostPort} (hseat : s.seats m p ≠ .away)
    (hg : ∀ k, (g s.ports[p]).seat k = .away) : Departed m p s (s.onPort p g) :=
  ⟨ElsewhereSame.onPort (State.seats_elsewhere hseat) fun k _ => hg k, rfl, rfl,
    (State.onPort_seats s p g m).trans (by rw [hg m])⟩

theorem HostPort.seat_breakOff (h : HostPort) (t : Transfer) (k : Seg) : (h.breakOff t).seat k = .away := by
  rw [HostPort.breakOff_eq]
  rfl

/-- A port broken out of its transfer has left its seat (R16, R102). -/
theorem Departed.breakPort {m : Seg} {p : Port} {s : State} (hseat : s.seats m p ≠ .away) (t : Transfer) (c : BreakCause) :
    Departed m p s (s.breakPort m p t c) := by
  obtain ⟨helse, harbiter, hengine, hseats⟩ := Departed.onPort hseat (g := HostPort.breakOff t)
    fun k => HostPort.seat_breakOff _ t k
  exact ⟨helse, harbiter, hengine, hseats⟩

/-- The holder `p` has left, and the segment is released: the engine ends its service by `f`. -/
theorem Departed.releaseBy {m : Seg} {p : Port} {s t : State} {f : Engine → Engine} (hleft : Departed m p s t)
    (h : s.segs[m].Fits (s.seats m)) (hst : s.segs[m].state = .active p) (hf : (f s.engines[m]).Fits .released) :
    ElsewhereSame m s (t.releaseBy m p f) ∧ (t.releaseBy m p f).Orderly m ∧ (t.releaseBy m p f).seats m p = .away := by
  obtain ⟨helse, harbiter, hengine, hseats⟩ := hleft
  have hbefore : ElsewhereSame m s ((t.onEngine m f).stopWait m p) :=
    (helse.trans (ElsewhereSame.onEngine _ m f)).trans (ElsewhereSame.onSeg _ m _)
  have hsegs : ((t.onEngine m f).stopWait m p).segs[m] =
      { t.segs[m] with waits := tabUpd t.segs[m].waits p (fun _ => .stopped) } := tabUpd_self _ _ _
  have hvacated : ((t.onEngine m f).stopWait m p).segs[m].Vacated (((t.onEngine m f).stopWait m p).seats m) := by
    rw [hsegs, harbiter]
    show Arbiter.Vacated _ (t.seats m)
    rw [hseats]
    exact h.vacate hst
  have hended : ((t.onEngine m f).stopWait m p).engines[m] = f t.engines[m] := tabUpd_self _ _ _
  have hhanded := State.handOver_handedOver hvacated
  obtain ⟨hafter, horderly⟩ := hhanded.settled (by rw [hended, hengine]; exact hf)
  refine ⟨hbefore.trans hafter, horderly, hhanded.stays p ?_⟩
  show t.seats m p = .away
  rw [hseats, Function.update_self]

/-- A release in a lawful state, the port becoming IDLE: the law is kept, and the port has no seat. -/
theorem RelayLaw.release_away {s : State} (h : RelayLaw s) {m : Seg} {p : Port} {g : HostPort → HostPort}
    (hst : s.segs[m].state = .active p) (hg : ∀ k, (g s.ports[p]).seat k = .away) (hl : (g s.ports[p]).Lawful) :
    RelayLaw ((s.onPort p g).release m p) ∧ ∀ k, ((s.onPort p g).release m p).seats k p = .away := by
  obtain ⟨hports, hsegs⟩ := (relayLaw_iff s).1 h
  obtain ⟨ha, he⟩ := hsegs m
  have hserving : s.engines[m].Fits (.serving p (s.seats m p)) := by
    rwa [State.duty, hst] at he
  have hseat : s.seats m p ≠ .away := fun hp => ha.ne_holder (.inl hp) hst
  obtain ⟨helse, horderly, haway⟩ := (Departed.onPort hseat hg).releaseBy ha hst hserving.endService
  refine ⟨h.of_segment ((hports.onPort hl).release m p) helse horderly, fun k => ?_⟩
  by_cases hk : k = m
  · exact hk ▸ haway
  · exact (congrFun (helse k hk).2.2 p).trans (State.seats_elsewhere hseat k hk)

theorem RelayLaw.release {s : State} (h : RelayLaw s) {m : Seg} {p : Port} {g : HostPort → HostPort}
    (hst : s.segs[m].state = .active p) (hg : ∀ k, (g s.ports[p]).seat k = .away) (hl : (g s.ports[p]).Lawful) :
    RelayLaw ((s.onPort p g).release m p) :=
  (h.release_away hst hg hl).1

end Sys2Proof.Machine
end

section
/-! SUPPORT. The law of the relay path through recoveries, breaks, arbitration losses and the expiries of waits (R60, R61, R64
to R66, R98 to R108). -/

namespace Sys2Proof.Machine

open Function (update update_apply)

/-! ### Who is served -/

theorem RelayLaw.orderly {s : State} (h : RelayLaw s) (m : Seg) : s.Orderly m := ((relayLaw_iff s).1 h).2 m

/-- The duty of an engine that serves a port. -/
theorem Engine.Fits.duty_of_served {e : Engine} {d : Duty} (h : e.Fits d) {p : Port} (hp : e.served = some p) :
    ∃ x, d = .serving p x := by
  have hrow := h.row
  rcases d with _ | _ | _ | _ | ⟨q, _ | _ | x | b | ⟨b, c⟩⟩ <;> simp only [Engine.Row] at hrow <;> grind

/-- The duty of an engine in RECOVERING. -/
theorem Engine.Fits.duty_of_recovering {e : Engine} {d : Duty} (h : e.Fits d) (hs : e.state = .recovering) :
    d = .recovering := by
  have hrow := h.row
  rcases d with _ | _ | _ | _ | ⟨p, _ | _ | x | b | ⟨b, c⟩⟩ <;>
  simp only [Engine.Row, Engine.ClosingRow, Engine.QuietRow, Engine.StoppingRow] at hrow <;> grind

/-- The seat of the port that an engine serves. -/
theorem Engine.Fits.serving_seat {e : Engine} {p : Port} {x : Seat} (h : e.Fits (.serving p x)) :
    x.addresses = true ∨ x.relays = true := by
  have hrow := h.row
  cases x <;> simp [Engine.Row, Seat.addresses, Seat.relays] at hrow ⊢

/-- The holder is the port that the engine serves (R75). -/
theorem State.Orderly.holder {s : State} {m : Seg} (h : s.Orderly m) {p : Port} (hst : s.segs[m].state = .active p) :
    s.engines[m].Fits (.serving p (s.seats m p)) := by
  have he := h.engine
  rwa [State.duty, hst] at he

/-- A served port holds the segment (R75). -/
theorem State.Orderly.served {s : State} {m : Seg} (h : s.Orderly m) {p : Port} (hp : s.engines[m].served = some p) :
    s.segs[m].state = .active p := by
  obtain ⟨x, hx⟩ := h.engine.duty_of_served hp
  exact (SegState.duty_serving.1 hx).1

/-- A port in a relay state holds the segment of its snapshot (R56). -/
theorem State.Orderly.relaying {s : State} {m : Seg} (h : s.Orderly m) {p : Port} (hp : (s.seats m p).relays = true) :
    s.segs[m].state = .active p := by
  have hallows := h.arbiter.held p
  cases hx : s.seats m p <;> simp only [hx, Seat.relays, SegState.Allows, Bool.false_eq_true] at hp hallows <;> exact hallows

/-- The port that an engine serves in ADDRESSING. -/
theorem State.Orderly.servedAddressing {s : State} {m : Seg} (h : s.Orderly m) {p : Port} {t : Transfer}
    (hs : s.servedAddressing m = some (p, t)) :
    s.segs[m].state = .active p ∧ s.ports[p].ctx = .addressing t ∧ s.seats m p = .addressing (t.snap.target, t.dir) := by
  have hserved : s.engines[m].served = some p ∧ s.ports[p].ctx = .addressing t := by
    unfold State.servedAddressing at hs
    grind
  obtain ⟨hp, hctx⟩ := hserved
  have hst := h.served hp
  refine ⟨hst, hctx, ?_⟩
  have hseat := (h.holder hst).serving_seat
  unfold State.seats HostPort.seat at hseat ⊢
  rw [hctx] at hseat ⊢
  dsimp only at hseat ⊢
  split
  · rfl
  · rw [if_neg ‹_›] at hseat
    simp [Seat.addresses, Seat.relays] at hseat

/-- The port that an engine serves in a relay state. -/
theorem State.Orderly.servedRelay {s : State} {m : Seg} (h : s.Orderly m) {p : Port} {t : Transfer}
    (hs : s.servedRelay m = some (p, t)) :
    s.segs[m].state = .active p ∧ s.ports[p].ctx.isRelay = true ∧ (s.seats m p).relays = true ∧
      (s.ports[p].ctx = .relayWrite t ∨ s.ports[p].ctx = .relayRead t) := by
  have hserved : s.engines[m].served = some p ∧ (s.ports[p].ctx = .relayWrite t ∨ s.ports[p].ctx = .relayRead t) := by
    unfold State.servedRelay at hs
    grind
  obtain ⟨hp, hctx⟩ := hserved
  have hst := h.served hp
  have hseat := (h.holder hst).serving_seat
  refine ⟨hst, ?_, ?_, hctx⟩
  · obtain hctx | hctx := hctx <;> rw [hctx] <;> rfl
  · refine hseat.resolve_left fun haddr => ?_
    unfold State.seats HostPort.seat at haddr
    obtain hctx | hctx := hctx <;> rw [hctx] at haddr <;> grind [Seat.addresses]

/-! ### A recovery begins (R64, R102, R104) -/

theorem State.beginRecovery_orderly {s : State} {m : Seg} {r : Option Port} (hr : s.recoveringState m = .recovering r)
    (ha : ({ s.segs[m] with state := .recovering r
                            recoveryCount := min 65535 (s.segs[m].recoveryCount + 1) }).Fits (s.seats m))
    (htries : s.engines[m].retry ≤ 3) (b : Option Port) :
    ElsewhereSame m s (s.beginRecovery m b) ∧ (s.beginRecovery m b).Orderly m := by
  have hsegs : (s.beginRecovery m b).segs[m] =
      { s.segs[m] with state := .recovering r, recoveryCount := min 65535 (s.segs[m].recoveryCount + 1) } := by
    rw [← hr]
    exact tabUpd_self _ _ _
  have hengine : (s.beginRecovery m b).engines[m] = s.engines[m].beginRecovery b := tabUpd_self _ _ _
  refine ⟨(ElsewhereSame.onSeg s m _).trans (ElsewhereSame.onEngine _ m _), ?_, ?_⟩
  · rw [hsegs]
    exact ha
  · rw [State.duty, hsegs, hengine]
    exact Engine.beginRecovery_fits htries b

/-- A recovery begins on a segment that nobody holds, or whose holder is in ADDRESSING. -/
theorem RelayLaw.beginRecovery {s : State} (h : RelayLaw s) {m : Seg}
    (hst : s.segs[m].state = .idle ∨ s.segs[m].state = .fault ∨
      ∃ p, s.segs[m].state = .active p ∧ (s.seats m p).addresses = true) (b : Option Port) :
    RelayLaw (s.beginRecovery m b) := by
  obtain ⟨ha, he⟩ := h.orderly m
  suffices hr : ∃ r, s.recoveringState m = .recovering r ∧ ({ s.segs[m] with
      state := .recovering r, recoveryCount := min 65535 (s.segs[m].recoveryCount + 1) }).Fits (s.seats m) by
    obtain ⟨r, hr, hfits⟩ := hr
    obtain ⟨helse, horderly⟩ := State.beginRecovery_orderly hr hfits he.tries b
    exact h.of_segment h.1 helse horderly
  obtain hst | hst | ⟨p, hst, hp⟩ := hst
  · exact ⟨none, State.recoveringState_free (.inl hst), ha.recover (.inl hst)⟩
  · exact ⟨none, State.recoveringState_free (.inr hst), ha.recover (.inr hst)⟩
  · obtain ⟨x, hx⟩ : ∃ x, s.seats m p = .addressing x := by
      cases hx : s.seats m p <;> simp [hx, Seat.addresses] at hp ⊢
    obtain ⟨t, ht, -⟩ := State.seats_addressing.1 hx
    exact ⟨some p, State.recoveringState_addressing hst ht, ha.suspend hst hx⟩

/-- The holder is broken out of its transfer, and a recovery begins (R102). -/
theorem RelayLaw.breakAndRecover {s : State} (h : RelayLaw s) {m : Seg} {p : Port} (hst : s.segs[m].state = .active p)
    (hrelay : s.ports[p].ctx.isRelay = true) (hseat : (s.seats m p).relays = true) (t : Transfer) (c : BreakCause)
    (b : Option Port) : RelayLaw ((s.breakPort m p t c).beginRecovery m b) := by
  obtain ⟨ha, he⟩ := h.orderly m
  have haway : s.seats m p ≠ .away := by
    intro haway
    simp [haway, Seat.relays] at hseat
  obtain ⟨hleft, -, -, hseats⟩ := Departed.breakPort haway t c
  have hr : (s.breakPort m p t c).recoveringState m = .recovering none := by
    rw [State.breakPort_eq]
    exact State.recoveringState_afterBreak hst
  obtain ⟨helse, horderly⟩ := State.beginRecovery_orderly hr (by rw [hseats]; exact ha.break hst hseat) he.tries b
  exact h.of_segment (h.1.breakPort hrelay m t c) (hleft.trans helse) horderly

/-! ### A recovery ends (R65, R66, R106, R107) -/

theorem State.postOutcome_segs (s : State) (m : Seg) (k : NoticeKind) :
    (s.postOutcome m k).segs = s.segs ∧ (s.postOutcome m k).engines = s.engines := by
  unfold State.postOutcome
  generalize s.recoveryAudience m = ps
  induction ps generalizing s with
  | nil => exact ⟨rfl, rfl⟩
  | cons p ps ih => exact ih _

theorem RelayLaw.postOutcome {s : State} (h : RelayLaw s) (m : Seg) (k : NoticeKind) : RelayLaw (s.postOutcome m k) :=
  h.of_same (s.postOutcome_ports m k) (s.postOutcome_segs m k).1 (s.postOutcome_segs m k).2

/-- A recovery succeeds (R65, R106). -/
theorem RelayLaw.recoverySucceeds {s : State} (h : RelayLaw s) {m : Seg} (hs : s.engines[m].state = .recovering) :
    RelayLaw (s.recoverySucceeds m) := by
  refine RelayLaw.postOutcome ?_ m _
  obtain ⟨ha, he⟩ := h.orderly m
  obtain ⟨r, hst⟩ := SegState.duty_recovering.1 (he.duty_of_recovering hs)
  have hquiet : ((s.onEngine m (Engine.endRecovery [.stop])).engines[m]).Fits .free := by
    rw [State.onEngine_self]
    exact Engine.endRecovery_fits he.tries (.inl rfl) _
  have helse := ElsewhereSame.onEngine s m (Engine.endRecovery [.stop])
  cases r with
  | some p =>
    obtain ⟨⟨y, hy⟩, hfits⟩ := ha.resume hst
    have htarget : s.targetOf p = some y := State.targetOf_addressing hy
    have hresume : (s.onEngine m (Engine.endRecovery [.stop])).resumeOrHandOver m =
        ((s.onEngine m (Engine.endRecovery [.stop])).setSegState m (.active p)).orderPhase m p := by
      simp only [State.resumeOrHandOver, State.onEngine_segs, hst]
    rw [hresume]
    refine h.of_segment h.1 ((helse.trans (ElsewhereSame.onSeg _ m _)).trans (ElsewhereSame.onEngine _ m _)) ⟨?_, ?_⟩
    · rw [State.orderPhase_segs, State.setSegState_segs, tabUpd_self]
      exact hfits
    · rw [State.duty, State.orderPhase_segs, State.orderPhase_engines, State.setSegState_segs, tabUpd_self, tabUpd_self]
      have hduty : (SegState.active p).duty (s.seats m) = .serving p (.addressing y) := by
        rw [SegState.duty, hy]
      refine hduty ▸ ?_
      have horder (shared : Bool) : (((s.onEngine m (Engine.endRecovery [.stop])).engines[m]).order p (s.targetOf p)
          shared).Fits (.serving p (.addressing y)) := htarget ▸ hquiet.released.order p y shared
      exact horder _
  | none =>
    have hover : (s.onEngine m (Engine.endRecovery [.stop])).resumeOrHandOver m =
        (s.onEngine m (Engine.endRecovery [.stop])).handOver m := by
      simp only [State.resumeOrHandOver, State.onEngine_segs, hst]
    rw [hover]
    have hhanded := State.handOver_handedOver (s := s.onEngine m (Engine.endRecovery [.stop])) (ha.vacated hst)
    exact h.of_segment (PortLaw.handOver (s := s.onEngine m _) h.1 m) (helse.trans hhanded.elsewhere) (hhanded.orderly hquiet)

/-- The ports that a failed recovery turns away: those queued, and the resume port (R66). -/
def Arbiter.stranded (a : Arbiter) : List Port :=
  a.queue ++ (match a.state with
    | .recovering (some p) => [p]
    | _ => [])

/-- In a recovery exactly the stranded ports have a seat (R56, R57). -/
theorem Arbiter.Fits.mem_stranded {a : Arbiter} {seat : Port → Seat} (h : a.Fits seat) {r : Option Port}
    (hst : a.state = .recovering r) (q : Port) : q ∈ a.stranded ↔ seat q ≠ .away := by
  have hallows := h.held q
  have hqueued := h.queue.queued q
  unfold Arbiter.stranded
  rw [hst] at hallows ⊢
  rw [List.mem_append, hqueued]
  generalize seat q = x at hallows
  cases x <;> cases r <;> simp only [SegState.Allows] at hallows <;> grind

/-- A failed recovery leaves its segment closed by `f`: the engine put in QUIET by `g`, everyone who was stranded turned
away. -/
theorem RelayLaw.closeSegment {s : State} (h : RelayLaw s) {m : Seg} {r : Option Port}
    (hst : s.segs[m].state = .recovering r) (reason : Reason) {f : Arbiter → Arbiter} {g : Engine → Engine}
    (hquiet : ∀ d, d = .free ∨ d = .down → (g s.engines[m]).Fits d)
    (hwaits : (f s.segs[m]).waits = s.segs[m].waits) (hq : (f s.segs[m]).queue = [])
    (hclosed : (f s.segs[m]).state = .disabled ∨ (f s.segs[m]).state = .fault) (hc : (f s.segs[m]).Configured)
    (hb : (f s.segs[m]).Bounded) :
    RelayLaw (State.refuseAll m reason s.segs[m].stranded ((s.onEngine m g).onSeg m f)) := by
  obtain ⟨ha, -⟩ := h.orderly m
  have hmem (q : Port) : q ∈ s.segs[m].stranded ↔ s.seats m q ≠ .away := ha.mem_stranded hst q
  have haway (q : Port) (hq : q ∈ s.segs[m].stranded) : ∀ k ≠ m, s.seats k q = .away :=
    State.seats_elsewhere ((hmem q).1 hq)
  have helse := ((ElsewhereSame.onEngine s m g).trans (ElsewhereSame.onSeg _ m f)).trans
    (State.refuseAll_elsewhere (s := (s.onEngine m _).onSeg m f) haway reason)
  obtain ⟨hfits, hstate⟩ := State.turnAllAway_fits (s := s.onEngine m g) (f := f) reason
    (fun q hq => (hmem q).2 hq) hwaits ha.queue.timed hclosed hq hc hb
  have hengine : (State.refuseAll m reason s.segs[m].stranded ((s.onEngine m g).onSeg m f)).engines[m] = g s.engines[m] :=
    (congrArg (fun v : Vector Engine 8 => v[m]) (State.refuseAll_frame _ _ _ _).1).trans (State.onEngine_self s m _)
  have hports : PortLaw ((s.onEngine m g).onSeg m f) := h.1
  refine h.of_segment (hports.refuseAll m reason _) helse ⟨hfits, ?_⟩
  rw [hengine, State.duty]
  refine hquiet _ ?_
  obtain hoff | hfault := hclosed
  · exact .inl (SegState.duty_free.2 (.inr (hstate.trans hoff)))
  · exact .inr (SegState.duty_down.2 (hstate.trans hfault))

/-- A recovery fails, its engine put in QUIET by `g` (R66). -/
theorem RelayLaw.failSegment {s : State} (h : RelayLaw s) {m : Seg} (hs : s.engines[m].state = .recovering)
    {g : Engine → Engine} (hquiet : ∀ d, d = .free ∨ d = .down → (g s.engines[m]).Fits d) :
    RelayLaw ((s.onEngine m g).failSegment m) := by
  obtain ⟨ha, he⟩ := h.orderly m
  obtain ⟨r, hst⟩ := SegState.duty_recovering.1 (he.duty_of_recovering hs)
  have hpending : s.segs[m].disablePending = !s.segs[m].enable := ha.pending (by rw [hst]; simp)
  unfold State.failSegment
  dsimp only
  split
  · rename_i hd
    have hd' : s.segs[m].disablePending = true := hd
    have hoff : s.segs[m].enable = false := by
      rw [hd'] at hpending
      simpa using hpending
    exact h.closeSegment hst .segmentDisabled hquiet rfl rfl (.inl rfl)
      ⟨fun _ => ⟨rfl, rfl⟩, fun _ => hoff, fun hne => absurd rfl hne⟩ ha.bounded
  · rename_i hd
    have hd' : s.segs[m].disablePending = false := by simpa using hd
    exact h.closeSegment hst .segmentFault hquiet rfl rfl (.inr rfl)
      ⟨fun _ => ⟨rfl, hd'⟩, fun hne => SegState.noConfusion hne, fun _ => hpending⟩ ha.bounded

/-- A recovery fails, after a change `f` of its engine that leaves the retry count (R66, R107). -/
theorem RelayLaw.recoveryFails {s : State} (h : RelayLaw s) {m : Seg} (hs : s.engines[m].state = .recovering)
    {f : Engine → Engine} (hf : (f s.engines[m]).retry ≤ 3) (acts : List BusAct) :
    RelayLaw ((s.onEngine m f).recoveryFails m acts) := by
  refine RelayLaw.postOutcome ?_ m _
  rw [State.onEngine_onEngine]
  exact h.failSegment hs fun d hd => Engine.endRecovery_fits hf (hd.imp_right .inr) acts

/-! ### A port leaves the queue, or its recovery (R60, R61, R68) -/

/-- A port leaves the segment it had a seat at, whose arbiter becomes `f` of itself and keeps its engine's duty. -/
theorem RelayLaw.leaveSeat {s : State} (h : RelayLaw s) {m : Seg} {p : Port} {g : HostPort → HostPort}
    {f : Arbiter → Arbiter} (hseat : s.seats m p ≠ .away) (hg : ∀ k, (g s.ports[p]).seat k = .away)
    (hl : (g s.ports[p]).Lawful) (hf : (f s.segs[m]).Fits (update (s.seats m) p .away))
    (hduty : (f s.segs[m]).state.duty (update (s.seats m) p .away) = s.duty m) :
    RelayLaw ((s.onPort p g).onSeg m f) := by
  have helse := (ElsewhereSame.onPort (f := g) (State.seats_elsewhere hseat) fun k _ => hg k).trans
    (ElsewhereSame.onSeg (s.onPort p g) m f)
  have hseats : ((s.onPort p g).onSeg m f).seats m = update (s.seats m) p .away := by
    rw [← hg m]
    exact State.onPort_seats s p g m
  have hports : PortLaw (s.onPort p g) := h.1.onPort hl
  refine h.of_segment hports helse ⟨?_, ?_⟩
  · rw [State.onSeg_self, hseats]
    exact hf
  · rw [State.duty, State.onSeg_self, hseats]
    exact hduty ▸ (h.orderly m).engine

/-- A queued port leaves the queue (R57, R60, R68). -/
theorem RelayLaw.leaveQueue {s : State} (h : RelayLaw s) {p : Port} {t : Transfer} (hc : s.ports[p].ctx = .waiting t)
    {g : HostPort → HostPort} (hg : ∀ k, (g s.ports[p]).seat k = .away) (hl : (g s.ports[p]).Lawful) :
    RelayLaw (((s.onPort p g).leaveQueue t.snap.seg p).stopWait t.snap.seg p) := by
  have ha := (h.orderly t.snap.seg).arbiter
  have hseat : s.seats t.snap.seg p = .waiting := State.seats_waiting.2 ⟨t, hc, rfl⟩
  unfold State.leaveQueue State.stopWait
  rw [State.onSeg_onSeg]
  exact h.leaveSeat (by rw [hseat]; simp) hg hl (ha.leave hseat) (SegState.duty_update (ha.ne_holder (.inr hseat)))

/-- The resume port leaves its recovery (R61, R68). -/
theorem RelayLaw.leaveRecovery {s : State} (h : RelayLaw s) {p : Port} {t : Transfer} {r : Option Port}
    (hc : s.ports[p].ctx = .addressing t) (hst : s.segs[t.snap.seg].state = .recovering r) {g : HostPort → HostPort}
    (hg : ∀ k, (g s.ports[p]).seat k = .away) (hl : (g s.ports[p]).Lawful) :
    RelayLaw (((s.onPort p g).setSegState t.snap.seg (.recovering none)).stopWait t.snap.seg p) := by
  have ha := (h.orderly t.snap.seg).arbiter
  have hseat : s.seats t.snap.seg p = .addressing (t.snap.target, t.dir) := State.seats_addressing.2 ⟨t, hc, rfl, rfl⟩
  have hresume : s.segs[t.snap.seg].state = .recovering (some p) := by
    have hallows := ha.held p
    rw [hseat] at hallows
    exact hallows.resolve_left (by rw [hst]; simp)
  unfold State.setSegState State.stopWait
  rw [State.onSeg_onSeg]
  exact h.leaveSeat (by rw [hseat]; simp) hg hl (ha.resumeLeaves hresume) (by rw [State.duty, hresume]; rfl)

/-- A port in ADDRESSING that is not in a recovery holds its segment (R56). -/
theorem RelayLaw.addressing_holder {s : State} (h : RelayLaw s) {p : Port} {t : Transfer}
    (hc : s.ports[p].ctx = .addressing t) (hst : ∀ r, s.segs[t.snap.seg].state ≠ .recovering r) :
    s.segs[t.snap.seg].state = .active p := by
  have hallows := (h.orderly t.snap.seg).arbiter.held p
  rw [State.seats_addressing.2 ⟨t, hc, rfl, rfl⟩] at hallows
  exact hallows.resolve_right (hst _)

/-- A queued port's wait ends: it is turned away (R60). -/
theorem RelayLaw.expireQueued {s : State} (h : RelayLaw s) {p : Port} {t : Transfer} (hc : s.ports[p].ctx = .waiting t) :
    RelayLaw (s.expireQueued p t) := by
  unfold State.expireQueued
  rw [State.refuseWaiter_waiting (s := s.leaveQueue _ p) _ hc]
  exact h.leaveQueue hc (g := HostPort.turnedAway .waitExpired t) (fun _ => rfl) (((h.1 p).toIdle false).record _ t)

/-- The wait of a port in ADDRESSING ends: the resume port leaves its recovery, the holder releases the segment (R61). -/
theorem RelayLaw.expireAddressing {s : State} (h : RelayLaw s) {p : Port} {t : Transfer}
    (hc : s.ports[p].ctx = .addressing t) : RelayLaw (s.expireAddressing p t) := by
  have hlawful : ((s.ports[p].toIdle false).record .waitExpired t).Lawful := ((h.1 p).toIdle false).record _ t
  unfold State.expireAddressing
  split
  · rename_i r hst
    rw [State.refuseWaiter_addressing (s := s.setSegState _ _) _ hc]
    exact h.leaveRecovery hc hst (g := HostPort.turnedAway .waitExpired t) (fun _ => rfl) hlawful
  · rename_i hst
    exact RelayLaw.release h (h.addressing_holder hc hst) (fun _ => rfl) hlawful

/-! ### Arbitration losses (R98 to R101) -/

theorem Engine.awaitsStart_served {e : Engine} {p : Port} (hp : e.served = some p)
    (hc : e.isClosing = true ∨ e.state = .stopping) : e.awaitsStart = true := by
  obtain hc | hc := hc <;> simp [Engine.awaitsStart, hp, hc]

/-- What a loss leaves of segment `m` before the engine goes on: a loss counted, and the engine's bus given up (R98). -/
def State.afterLoss (s : State) (m : Seg) : State :=
  (s.onEngine m Engine.lose).onSeg m (fun a => { a with lossCount := min 65535 (a.lossCount + 1) })

theorem ElsewhereSame.afterLoss (s : State) (m : Seg) : ElsewhereSame m s (s.afterLoss m) :=
  (ElsewhereSame.onEngine s m _).trans (ElsewhereSame.onSeg _ m _)

theorem State.afterLoss_segs (s : State) (m : Seg) :
    (s.afterLoss m).segs[m] = { s.segs[m] with lossCount := min 65535 (s.segs[m].lossCount + 1) } := tabUpd_self _ _ _

theorem State.afterLoss_engines (s : State) (m : Seg) : (s.afterLoss m).engines[m] = s.engines[m].lose := tabUpd_self _ _ _

/-- After a loss the engine is changed alone. -/
theorem RelayLaw.afterLoss {s : State} (h : RelayLaw s) {m : Seg} {f : Engine → Engine}
    (hf : (f s.engines[m].lose).Fits (s.duty m)) : RelayLaw ((s.afterLoss m).onEngine m f) := by
  refine h.of_segment h.1 ((ElsewhereSame.afterLoss s m).trans (ElsewhereSame.onEngine _ m f)) ⟨?_, ?_⟩
  · rw [State.onEngine_segs, State.afterLoss_segs]
    exact (h.orderly m).arbiter.lost
  · rw [State.onEngine_self, State.afterLoss_engines, State.duty, State.onEngine_segs, State.afterLoss_segs]
    exact hf

/-- After a loss the holder leaves, and the segment is released with its engine in QUIET (R99, R100). -/
theorem RelayLaw.afterLoss_release {s t : State} (h : RelayLaw s) {m : Seg} {p : Port} (hst : s.segs[m].state = .active p)
    (hleft : Departed m p (s.afterLoss m) t) (hports : PortLaw t) : RelayLaw (t.releaseBy m p Engine.toQuiet) := by
  have hlost : (s.afterLoss m).segs[m].Fits ((s.afterLoss m).seats m) := by
    rw [State.afterLoss_segs]
    exact (h.orderly m).arbiter.lost
  have hactive : (s.afterLoss m).segs[m].state = .active p := by
    rw [State.afterLoss_segs]
    exact hst
  have hquiet : ((s.afterLoss m).engines[m].toQuiet).Fits .released := by
    rw [State.afterLoss_engines]
    exact Engine.toQuiet_fits (h.orderly m).engine.tries (.inr (.inl rfl))
  obtain ⟨helse, horderly, -⟩ := hleft.releaseBy hlost hactive hquiet
  exact h.of_segment (hports.releaseBy m p _) ((ElsewhereSame.afterLoss s m).trans helse) horderly

/-- A loss with the engine closing, or in STOPPING (R101). -/
theorem RelayLaw.lossUnserved {s : State} (h : RelayLaw s) {m : Seg}
    (hc : s.engines[m].isClosing = true ∨ s.engines[m].state = .stopping) : RelayLaw ((s.afterLoss m).lossUnserved m) := by
  obtain ⟨ha, he⟩ := h.orderly m
  have hduty : (s.duty m = .free ∨ s.duty m = .released) ∧ s.engines[m].served = none ∨
      ∃ p x, s.duty m = .serving p (.addressing x) ∧ s.engines[m].served = some p :=
    hc.elim (fun hc => (he.closing hc).2) (fun hs => (he.stopping hs).2.2)
  have hserved : (s.afterLoss m).engines[m].served = s.engines[m].served := by rw [State.afterLoss_engines]; rfl
  unfold State.lossUnserved
  rw [hserved]
  obtain ⟨hfree, hnone⟩ | ⟨p, x, hd, hp⟩ := hduty
  · rw [hnone]
    exact h.afterLoss (Engine.toQuiet_fits he.tries (hfree.imp_right .inl))
  · have htries : s.engines[m].retry ≤ 2 := he.fresh (Engine.awaitsStart_served hp hc)
    have htarget : s.targetOf p = some x := State.targetOf_addressing (SegState.duty_serving.1 hd).2
    rw [hp]
    show RelayLaw ((s.afterLoss m).onEngine m _)
    refine h.afterLoss ?_
    rw [hd]
    exact Engine.lose_again hp htries htarget _

/-- A loss in the address phase (R99). -/
theorem RelayLaw.lossInAddress {s : State} (h : RelayLaw s) {m : Seg} {p : Port} {t : Transfer}
    (hs : s.servedAddressing m = some (p, t)) (hc : s.engines[m].isClosing = false) (hst : s.engines[m].state ≠ .stopping) :
    RelayLaw ((s.afterLoss m).lossInAddress m p t) := by
  obtain ⟨hactive, hctx, hseat⟩ := (h.orderly m).servedAddressing hs
  have hduty : s.duty m = .serving p (.addressing (t.snap.target, t.dir)) := SegState.duty_serving.2 ⟨hactive, hseat⟩
  unfold State.lossInAddress
  split
  · rename_i hretry
    rw [State.afterLoss_engines] at hretry
    have he := (h.orderly m).engine
    rw [hduty] at he
    obtain ⟨hserved, hrow⟩ := he.row
    rw [hc, if_neg Bool.false_ne_true] at hrow
    have htarget : s.engines[m].target = some (t.snap.target, t.dir) := by
      grind [Engine.StoppingRow]
    have hdisc : s.engines[m].discarding = false := by
      simp only [Engine.isClosing, Bool.or_eq_false_iff] at hc
      exact hc.2
    refine h.afterLoss ?_
    have hsame : s.engines[m].lose = { s.engines[m].lose with discarding := false, target := s.engines[m].target } := by
      simp only [Engine.lose, hdisc]
    rw [hduty, hsame]
    exact Engine.lose_again hserved (Nat.le_of_lt_succ hretry) htarget _
  · have hports : PortLaw (s.afterLoss m) := h.1
    refine h.afterLoss_release hactive ?_ (hports.refuse p .arbitrationLost t)
    have hthere : (s.afterLoss m).seats m p ≠ .away := fun haway => Seat.noConfusion (hseat.symm.trans haway)
    exact Departed.onPort hthere fun _ => rfl

/-- A loss in the data phase (R100). -/
theorem RelayLaw.lossInData {s : State} (h : RelayLaw s) {m : Seg} {p : Port} {t : Transfer}
    (hs : s.servedRelay m = some (p, t)) : RelayLaw ((s.afterLoss m).lossInData m p t) := by
  obtain ⟨hactive, hrelay, hseat, -⟩ := (h.orderly m).servedRelay hs
  have hports : PortLaw (s.afterLoss m) := h.1
  have hthere : (s.afterLoss m).seats m p ≠ .away := by
    intro haway
    have haway' : s.seats m p = .away := haway
    simp [haway', Seat.relays] at hseat
  exact h.afterLoss_release hactive (Departed.breakPort hthere t _) (PortLaw.breakPort (s := s.afterLoss m) hports hrelay m t _)

theorem RelayLaw.lose {s : State} (h : RelayLaw s) (m : Seg) : Ensures (s.lose m) RelayLaw := by
  unfold State.lose
  dsimp only
  split
  · rename_i hc
    exact ensures_next.2 (h.lossUnserved (by simpa using hc))
  · rename_i hc
    rw [Bool.not_eq_true, Bool.or_eq_false_iff, decide_eq_false_iff_not] at hc
    split
    · exact ensures_next.2 (h.lossInAddress ‹_› hc.1 hc.2)
    · split
      · exact ensures_next.2 (h.lossInData ‹_›)
      · exact ensures_fault

end Sys2Proof.Machine
end

section
/-! SUPPORT. The law of the relay path through the Command Unit: SCFG, SRCV and PRST alone touch ports, arbiters or engines. -/

namespace Sys2Proof.Machine

open Function (update update_apply)

/-! ### What leaves the relay path alone -/

/-- Ports, arbiters and engines. -/
def State.relayPath (s : State) : Vector HostPort 4 × Vector Arbiter 8 × Vector Engine 8 := (s.ports, s.segs, s.engines)

theorem relayPath_eq_iff {s t : State} :
    t.relayPath = s.relayPath ↔ t.ports = s.ports ∧ t.segs = s.segs ∧ t.engines = s.engines := by
  simp [State.relayPath]

theorem RelayLaw.of_relayPath {s t : State} (h : RelayLaw s) (ht : t.relayPath = s.relayPath) : RelayLaw t := by
  obtain ⟨hports, hsegs, hengines⟩ := relayPath_eq_iff.1 ht
  exact h.of_same hports hsegs hengines

@[simp] theorem State.onEntry_relayPath (s : State) (e : EntryIx) (f : Entry → Entry) :
    (s.onEntry e f).relayPath = s.relayPath := rfl
@[simp] theorem State.onNotices_relayPath (s : State) (p : Port) (f : NoticeQueue → NoticeQueue) :
    (s.onNotices p f).relayPath = s.relayPath := rfl
@[simp] theorem State.onBuffer_relayPath (s : State) (p : Port) (f : FrameBuffer → FrameBuffer) :
    (s.onBuffer p f).relayPath = s.relayPath := rfl
@[simp] theorem State.onResponse_relayPath (s : State) (p : Port) (f : Response → Response) :
    (s.onResponse p f).relayPath = s.relayPath := rfl
@[simp] theorem State.onRights_relayPath (s : State) (p : Port) (f : RightsRow → RightsRow) :
    (s.onRights p f).relayPath = s.relayPath := rfl
@[simp] theorem State.post_relayPath (s : State) (p : Port) (k : NoticeKind) (e : Option EntryIx) (m : Option Seg)
    (tok : Byte) : (s.post p k e m tok).relayPath = s.relayPath := rfl
@[simp] theorem State.respond_relayPath (s : State) (p : Port) (st : Status) (echo : Byte) (payload : List Byte) :
    (s.respond p st echo payload).relayPath = s.relayPath := rfl
@[simp] theorem State.badArgument_relayPath (s : State) (p : Port) (op : Op) :
    (s.badArgument p op).relayPath = s.relayPath := rfl
@[simp] theorem State.setLease_relayPath (s : State) (i : Slot) (l : Option Lease) :
    (s.setLease i l).relayPath = s.relayPath := rfl
@[simp] theorem State.afterIssue_relayPath (s : State) (tok : Byte) : (s.afterIssue tok).relayPath = s.relayPath := rfl
@[simp] theorem State.closeGap_relayPath (s : State) (e : EntryIx) (k : Nat) :
    (s.closeGap e k).relayPath = s.relayPath := rfl
@[simp] theorem State.makeLease_relayPath (s : State) (i : Slot) (p : Port) (e : EntryIx) (d : Nat) (st : LeaseStatus) :
    (s.makeLease i p e d st).relayPath = s.relayPath := rfl

/-! The Lease Table. -/

@[simp] theorem State.freeRecord_relayPath (s : State) (x : Slot × Lease) : (s.freeRecord x).relayPath = s.relayPath := by
  unfold State.freeRecord
  dsimp only
  split <;> simp

@[simp] theorem State.promote_relayPath (s : State) (e : EntryIx) : (s.promote e).relayPath = s.relayPath := by
  obtain ⟨hports, ⟨hsegs, hengines⟩, -⟩ := s.promote_frame e
  exact relayPath_eq_iff.2 ⟨hports, hsegs, hengines⟩

@[simp] theorem State.freeAndPromote_relayPath (s : State) (x : Slot × Lease) :
    (s.freeAndPromote x).relayPath = s.relayPath := by
  simp [State.freeAndPromote]

@[simp] theorem State.expireLease_relayPath (s : State) (x : Slot × Lease) : (s.expireLease x).relayPath = s.relayPath := by
  simp [State.expireLease]

@[simp] theorem State.revoke_relayPath (s : State) (x : Slot × Lease) (c : RevokeCause) (m : Option Seg) :
    (s.revoke x c m).relayPath = s.relayPath := by
  simp [State.revoke]

@[simp] theorem State.revokeHeld_relayPath (s : State) (e : EntryIx) (c : RevokeCause) (m : Option Seg) :
    (s.revokeHeld e c m).relayPath = s.relayPath := by
  unfold State.revokeHeld
  split <;> simp

@[simp] theorem State.cancelPending_relayPath (e : EntryIx) (c : RevokeCause) (m : Option Seg) (n : Nat) (s : State) :
    (State.cancelPending e c m n s).relayPath = s.relayPath := by
  induction n generalizing s with
  | zero => rfl
  | succ n ih =>
    unfold State.cancelPending
    split <;> simp [ih]

@[simp] theorem State.clearEntry_relayPath (s : State) (e : EntryIx) (c d : RevokeCause) (m : Option Seg) :
    (s.clearEntry e c d m).relayPath = s.relayPath := by
  simp [State.clearEntry]

@[simp] theorem State.cancelUnseen_relayPath (e : EntryIx) (vis : PortMask) (m : Option Seg) (n : Nat) (s : State) :
    (State.cancelUnseen e vis m n s).relayPath = s.relayPath := by
  induction n generalizing s with
  | zero => rfl
  | succ n ih =>
    unfold State.cancelUnseen
    split <;> simp [ih]

@[simp] theorem State.loseVisibility_relayPath (s : State) (e : EntryIx) (vis : PortMask) (m : Option Seg) :
    (s.loseVisibility e vis m).relayPath = s.relayPath := by
  unfold State.loseVisibility
  repeat' split
  all_goals simp

@[simp] theorem State.cutHeld_relayPath (s : State) (e : EntryIx) (ms : Nat) :
    (s.cutHeld e ms).relayPath = s.relayPath := by
  unfold State.cutHeld
  split <;> simp

@[simp] theorem State.freeAllOwn_relayPath (s : State) (q : Port) : (s.freeAllOwn q).relayPath = s.relayPath := by
  obtain ⟨hports, ⟨hsegs, hengines⟩, -⟩ := s.freeAllOwn_frame q
  exact relayPath_eq_iff.2 ⟨hports, hsegs, hengines⟩

/-! ### The three commands that act on the relay path -/

/-- The limits that the arguments step of SCFG lets through (R69). -/
theorem decodeScfg_limits {segment enable shared waitLimit holdLimit : Byte} {m : Seg} {c : SegConfig}
    (h : decodeScfg segment enable shared waitLimit holdLimit = some (m, c)) :
    (1 ≤ c.waitLimit ∧ c.waitLimit ≤ 255) ∧ 5 ≤ c.holdLimit ∧ c.holdLimit ≤ 100 := by
  simp only [decodeScfg, Option.bind_eq_bind, Option.bind_eq_some_iff] at h
  obtain ⟨_, -, _, -, _, -, h⟩ := h
  split at h
  · rename_i hlimits
    obtain ⟨hwait, hhold⟩ := hlimits
    cases h
    have hlt : waitLimit.toNat < 256 := waitLimit.isLt
    have hne : waitLimit.toNat ≠ 0 := fun hzero => hwait (BitVec.eq_of_toNat_eq (by simpa using hzero))
    exact ⟨⟨Nat.one_le_iff_ne_zero.2 hne, Nat.le_of_lt_succ hlt⟩, hhold⟩
  · cases h

/-- SCFG (R70). -/
theorem RelayLaw.cmdScfg {s : State} (h : RelayLaw s) (p : Port) (segment enable shared waitLimit holdLimit : Byte) :
    RelayLaw (s.cmdScfg p segment enable shared waitLimit holdLimit) := by
  unfold State.cmdScfg
  split
  · exact h.of_relayPath rfl
  · rename_i m c hc
    obtain ⟨hwait, hhold⟩ := decodeScfg_limits hc
    obtain ⟨ha, he⟩ := h.orderly m
    refine RelayLaw.of_relayPath (s := s.onSeg m (Arbiter.configure c)) ?_ rfl
    refine h.of_segment h.1 (ElsewhereSame.onSeg s m _) ⟨?_, ?_⟩
    · rw [State.onSeg_self]
      exact ha.configure hwait hhold
    · rw [State.duty, State.onSeg_self]
      show s.engines[m].Fits (SegState.duty (s.seats m) _)
      obtain ⟨-, -, hsame | ⟨hfrom, hto⟩⟩ := s.segs[m].configure_frame c
      · rw [hsame]
        exact he
      · rw [SegState.duty_free.2 hto.symm]
        rw [State.duty] at he
        obtain hst | hst | hst := hfrom <;> rw [hst] at he
        · exact he
        · exact he.free_of_down
        · exact he

/-- A port in a relay state is relaying on the segment of its snapshot. -/
theorem State.seats_relays {s : State} {p : Port} {t : Transfer}
    (hc : s.ports[p].ctx = .relayWrite t ∨ s.ports[p].ctx = .relayRead t) : (s.seats t.snap.seg p).relays = true := by
  obtain hc | hc := hc
  · rw [State.seats_writing.2 ⟨t, hc, rfl, rfl⟩]
    rfl
  · rw [State.seats_reading.2 ⟨t, hc, rfl, rfl, rfl⟩]
    rfl

/-- A relaying port holds the segment of its snapshot (R56). -/
theorem RelayLaw.relay_holder {s : State} (h : RelayLaw s) {p : Port} {t : Transfer}
    (hc : s.ports[p].ctx = .relayWrite t ∨ s.ports[p].ctx = .relayRead t) : s.segs[t.snap.seg].state = .active p :=
  (h.orderly _).relaying (State.seats_relays hc)

/-- The holder of an ACTIVE segment is in ADDRESSING or relays on it (R56). -/
theorem RelayLaw.holder_seat {s : State} (h : RelayLaw s) {m : Seg} {p : Port} (hst : s.segs[m].state = .active p) :
    (s.seats m p).addresses = true ∨ (s.seats m p).relays = true :=
  ((h.orderly m).holder hst).serving_seat

/-- A recovery by command (R110). -/
theorem RelayLaw.forceRecovery {s : State} (h : RelayLaw s) {m : Seg} (hst : ∀ r, s.segs[m].state ≠ .recovering r)
    (hoff : s.segs[m].state ≠ .disabled) : RelayLaw (s.forceRecovery m) := by
  have hbreak {p : Port} (hactive : s.segs[m].state = .active p) {t : Transfer}
      (hc : s.ports[p].ctx = .relayWrite t ∨ s.ports[p].ctx = .relayRead t) :
      RelayLaw ((s.breakPort m p t .recoveryForced).beginRecovery m (some p)) := by
    refine h.breakAndRecover hactive ?_ ((h.holder_seat hactive).resolve_left fun haddr => ?_) t _ _
    · obtain hc | hc := hc <;> rw [hc] <;> rfl
    · rw [State.seats, ← HostPort.addressesAt_eq] at haddr
      obtain hc | hc := hc <;> rw [hc] at haddr <;> cases haddr
  unfold State.forceRecovery
  split
  · rename_i p hactive
    split
    · exact hbreak hactive (.inl ‹_›)
    · exact hbreak hactive (.inr ‹_›)
    · rename_i hwrite hread
      refine h.beginRecovery (.inr (.inr ⟨p, hactive, (h.holder_seat hactive).resolve_right fun hrelay => ?_⟩)) none
      rw [State.seats, ← HostPort.relaysAt_eq] at hrelay
      unfold Ctx.relaysAt at hrelay
      cases hc : s.ports[p].ctx with
      | relayWrite t => exact hwrite t hc
      | relayRead t => exact hread t hc
      | _ => rw [hc] at hrelay; cases hrelay
  · rename_i hactive
    refine h.beginRecovery ?_ none
    cases hx : s.segs[m].state with
    | idle => exact .inl rfl
    | fault => exact .inr (.inl rfl)
    | active p => exact absurd hx (hactive p)
    | recovering r => exact absurd hx (hst r)
    | disabled => exact absurd hx hoff

/-- SRCV (R110). -/
theorem RelayLaw.cmdSrcv {s : State} (h : RelayLaw s) (p : Port) (segment : Byte) : RelayLaw (s.cmdSrcv p segment) := by
  unfold State.cmdSrcv
  split
  · exact h.of_relayPath rfl
  · split
    · exact h.of_relayPath rfl
    · exact h.of_relayPath rfl
    · rename_i hrec hoff
      exact (h.forceRecovery hrec hoff).of_relayPath rfl

theorem HostPort.Lawful.portReset {x : HostPort} (hl : x.Lawful) : x.portReset.Lawful := by
  obtain ⟨hclock, hbyte, htimer, haddr, -⟩ := hl.toIdle false
  exact ⟨hclock, hbyte, htimer, haddr, Nat.zero_le _⟩

theorem HostPort.Lawful.clearRefusal {x : HostPort} (hl : x.Lawful) : x.clearRefusal.Lawful := by
  obtain ⟨hclock, hbyte, htimer, haddr, -⟩ := hl
  exact ⟨hclock, hbyte, htimer, haddr, Nat.zero_le _⟩

/-- A port that is IDLE, in a frame or a response, or BROKEN has no seat. -/
theorem HostPort.seat_unseated {x : HostPort} (hc : x.ctx.transfer? = none ∨ ∃ t, x.ctx = .broken t) (m : Seg) :
    x.seat m = .away := by
  obtain hc | ⟨t, hc⟩ := hc
  · exact HostPort.seat_untransferred hc m
  · simp only [HostPort.seat, hc]

/-- Step 1 of a port reset (R21, R68, R153). -/
theorem RelayLaw.resetContext {s : State} (h : RelayLaw s) (q : Port) : RelayLaw (s.resetContext q) := by
  have hl := (h.1 q).portReset
  have hg (k : Seg) : (s.ports[q].portReset).seat k = .away := rfl
  have hunseated (hc : s.ports[q].ctx.transfer? = none ∨ ∃ t, s.ports[q].ctx = .broken t) :
      RelayLaw (s.onPort q HostPort.portReset) :=
    h.onPort hl fun k => (HostPort.seat_unseated hc k).symm
  unfold State.resetContext
  dsimp only
  cases hc : s.ports[q].ctx with
  | idle => exact hunseated (.inl (by rw [hc]; rfl))
  | waiting t => exact h.leaveQueue hc hg hl
  | addressing t =>
    dsimp only
    split
    · exact h.leaveRecovery hc ‹_› hg hl
    · exact h.release (h.addressing_holder hc ‹_›) hg hl
  | relayWrite t => exact h.release (h.relay_holder (.inl hc)) hg hl
  | relayRead t => exact h.release (h.relay_holder (.inr hc)) hg hl
  | broken t => exact hunseated (.inr ⟨t, hc⟩)
  | commandIn => exact (hunseated (.inl (by rw [hc]; rfl))).of_relayPath rfl
  | responseOut pos closed => exact hunseated (.inl (by rw [hc]; rfl))

/-- PRST (R153). -/
theorem RelayLaw.cmdPrst {s : State} (h : RelayLaw s) (p : Port) (port : Byte) : RelayLaw (s.cmdPrst p port) := by
  unfold State.cmdPrst
  split
  · exact h.of_relayPath rfl
  · rename_i q _
    have hfirst : RelayLaw (if q = p then s.onPort q HostPort.clearRefusal else s.resetContext q) := by
      split
      · exact h.onPort (h.1 q).clearRefusal fun _ => rfl
      · exact h.resetContext q
    exact hfirst.of_relayPath (by simp [State.portReset])

/-- Every command from its arguments step on keeps the law of the relay path. -/
theorem RelayLaw.perform {s : State} (h : RelayLaw s) (p : Port) (c : Command) : RelayLaw (s.perform p c) := by
  cases c with
  | scfg a b c d e => exact h.cmdScfg p a b c d e
  | srcv a => exact h.cmdSrcv p a
  | prst a => exact h.cmdPrst p a
  | lrel a b =>
    refine h.of_relayPath ?_
    simp only [State.perform, State.cmdLrel, State.cancelLease, State.releaseLease]
    repeat' split
    all_goals simp
  | insr _ _ _ _ _ _ _ _ _ =>
    refine h.of_relayPath ?_
    simp only [State.perform, State.cmdInsr]
    repeat' split
    all_goals simp
  | dflt a b =>
    refine h.of_relayPath ?_
    simp only [State.perform, State.cmdDflt]
    split <;> rfl
  | _ =>
    refine h.of_relayPath ?_
    simp only [State.perform, State.cmdDelr, State.cmdModr, State.cmdRdrt, State.cmdLacq, State.cmdLren,
      State.cmdLrev, State.cmdLqry, State.cmdSsta, State.cmdNfet, State.cmdPsta, State.cmdRght, State.cmdIdnt]
    repeat' split
    all_goals simp

theorem RelayLaw.runCommand {s : State} (h : RelayLaw s) (p : Port) (c : Command) : RelayLaw (s.runCommand p c) := by
  unfold State.runCommand
  split
  · exact h.perform p c
  · exact h.of_relayPath rfl

/-- A frame is taken (R143, R144). -/
theorem RelayLaw.takeFrame {s : State} (h : RelayLaw s) (p : Port) : RelayLaw (s.takeFrame p) := by
  unfold State.takeFrame
  dsimp only
  have hemptied : RelayLaw (s.onBuffer p (fun _ => FrameBuffer.reset)) := h.of_relayPath rfl
  split
  · exact hemptied
  · split
    · exact hemptied.of_relayPath rfl
    · split
      · exact hemptied.of_relayPath rfl
      · split
        · exact hemptied.of_relayPath rfl
        · exact hemptied.runCommand p _

theorem RelayLaw.commandRow {s : State} (h : RelayLaw s) (p : Port) (c : Command) : Ensures (s.commandRow p c) RelayLaw := by
  unfold State.commandRow
  split
  · exact ensures_next.2 (h.runCommand p c)
  · exact ensures_refused

end Sys2Proof.Machine
end

section
/-! SUPPORT. The law of the relay path through the host bus rows. -/

namespace Sys2Proof.Machine

open Function (update update_apply)

/-! ### Ports without a seat -/

theorem State.seats_untransferred {s : State} {p : Port} (hc : s.ports[p].ctx.transfer? = none) (k : Seg) :
    s.seats k p = .away :=
  HostPort.seat_untransferred hc k

theorem State.seats_broken {s : State} {p : Port} {t : Transfer} (hc : s.ports[p].ctx = .broken t) (k : Seg) :
    s.seats k p = .away :=
  HostPort.seat_unseated (.inr ⟨t, hc⟩) k

theorem RelayLaw.toIdle {s : State} (h : RelayLaw s) {p : Port} (hp : ∀ k, s.seats k p = .away) (exp : Bool) :
    RelayLaw (s.onPort p (HostPort.toIdle exp)) :=
  h.onPort ((h.1 p).toIdle exp) fun k => (hp k).symm

/-- A port waits again for its host, its context as it was. -/
theorem RelayLaw.await {s : State} (h : RelayLaw s) {p : Port} (hclock : s.ports[p].clockHeld = false)
    (ht : s.ports[p].ctx.timed = true) (acts : List UpAct) : RelayLaw (s.onPort p (HostPort.await acts)) :=
  h.onPort ((h.1 p).await hclock ht acts) fun _ => rfl

/-- What an IDLE port drove ends. -/
theorem RelayLaw.quietUpstream {s : State} (h : RelayLaw s) (p : Port) :
    RelayLaw (s.onPort p (fun h => { h with upstream := [] })) :=
  h.onPort ((h.1 p).upstream []) fun _ => rfl

/-- A port at rest enters a frame or a response, and waits for its host (R4, R6, R8). -/
theorem HostPort.Lawful.converse {h : HostPort} (hl : h.Lawful) {c : Ctx} (hc : c.timed = true) (hheld : c.holdsClock = false)
    (acts : List UpAct) : ({ h.toIdle false with ctx := c }.await acts).Lawful := by
  obtain ⟨-, -, -, -, hcount⟩ := hl
  exact ⟨by simp [HostPort.await, HostPort.toIdle, hheld], by simp [HostPort.await, HostPort.toIdle], by simp [HostPort.await, HostPort.toIdle, hc]; rfl,
    by simp [HostPort.await, HostPort.toIdle], hcount⟩

/-- A port in a response goes on in it, and waits for its host (R8). -/
theorem HostPort.Lawful.respond {h : HostPort} (hl : h.Lawful) {pos : Nat} {closed : Bool}
    (hc : h.ctx = .responseOut pos closed) (hclock : h.clockHeld = false) (pos' : Nat) (closed' : Bool)
    (acts : List UpAct) : ({ h with ctx := .responseOut pos' closed' }.await acts).Lawful := by
  obtain ⟨hheld, -⟩ := hl.released hclock
  obtain ⟨-, -, -, haddr, hcount⟩ := hl
  have hexp : h.addrExpected = false := by simpa [hc, Ctx.mayExpectAddress] using haddr
  exact ⟨by simp [HostPort.await, hclock, hheld, Ctx.holdsClock], by simp [HostPort.await, hheld],
    by simp [HostPort.await, hclock, Ctx.timed]; rfl, by simp [HostPort.await, hexp], hcount⟩

/-- The law is kept by a response that goes on (R8). -/
theorem RelayLaw.respond {s : State} (h : RelayLaw s) {p : Port} {pos : Nat} {closed : Bool}
    (hc : s.ports[p].ctx = .responseOut pos closed) (hclock : s.ports[p].clockHeld = false) (pos' : Nat) (closed' : Bool)
    (acts : List UpAct) : RelayLaw (s.onPort p (fun h => { h with ctx := .responseOut pos' closed' }.await acts)) :=
  h.onPort ((h.1 p).respond hc hclock pos' closed' acts)
    fun k => (State.seats_untransferred (by rw [hc]; rfl) k).symm

/-! ### The address byte (R4, R9, R15) -/

/-- The classification of an address byte on a port without a seat (R4). -/
theorem RelayLaw.classify {s : State} (h : RelayLaw s) {p : Port} (hp : ∀ k, s.seats k p = .away) (a : Addr) (d : Dir) :
    RelayLaw (s.classify p a d) := by
  unfold State.classify
  split
  · exact h.toIdle hp false
  · split
    · cases d with
      | write =>
        have hentered : RelayLaw (s.onPort p (fun h => { h.toIdle false with ctx := .commandIn }.await [.acknowledge])) :=
          h.onPort ((h.1 p).converse rfl rfl _) fun k => (hp k).symm
        exact hentered.of_relayPath rfl
      | read => exact h.onPort ((h.1 p).converse rfl rfl _) fun k => (hp k).symm
    · split
      · unfold State.relayArrival
        split
        · exact h.refuse hp _ _
        · exact h.arrive hp
      · exact h.toIdle hp false

/-- The holder of segment `m` changes its record by `g` and its engine by `e`, after a change of the arbiter alone. -/
theorem RelayLaw.onHolder {s u : State} (h : RelayLaw s) {m : Seg} {p : Port} {x : Seat}
    (hst : s.segs[m].state = .active p) (helse : ElsewhereSame m s u) (hports : u.ports = s.ports)
    (hengine : u.engines[m] = s.engines[m]) (ha : u.segs[m].Fits (update (s.seats m) p x))
    (hstate : u.segs[m].state = .active p) {g : HostPort → HostPort} (hl : (g s.ports[p]).Lawful)
    (hx : (g s.ports[p]).seat m = x) {e : Engine → Engine} (he : (e s.engines[m]).Fits (.serving p x)) :
    RelayLaw ((u.onPort p g).onEngine m e) := by
  have haway : s.seats m p ≠ .away := fun hp => (h.orderly m).arbiter.ne_holder (.inl hp) hst
  have hx' : (g s.ports[p]).seat m ≠ .away := by
    rw [hx]
    rintro rfl
    have hseat := he.serving_seat
    simp [Seat.addresses, Seat.relays] at hseat
  have hu : u.seats = s.seats := by
    unfold State.seats
    rw [hports]
  have hseats : ((u.onPort p g).onEngine m e).seats m = update (s.seats m) p x := by
    rw [← hu, ← hx, ← hports]
    exact State.onPort_seats u p g m
  have hport : PortLaw (u.onPort p g) := (h.1.of_ports hports).onPort (by rw [hports]; exact hl)
  refine h.of_segment hport ((helse.trans (ElsewhereSame.onPort (f := g) ?_ ?_)).trans (ElsewhereSame.onEngine _ m e)) ⟨?_, ?_⟩
  · rw [hu]
    exact State.seats_elsewhere haway
  · rw [hports]
    exact fun k hk => HostPort.seat_elsewhere hx' hk
  · rw [hseats]
    exact ha
  · rw [State.onEngine_self, State.duty, hseats]
    show (e u.engines[m]).Fits (SegState.duty _ u.segs[m].state)
    rw [hengine, hstate, SegState.duty, Function.update_self]
    exact he

/-- A relaying port keeps its grant, or releases the segment (R15 case 1). -/
theorem RelayLaw.sameSegment {s : State} (h : RelayLaw s) {p : Port} {t : Transfer}
    (hst : s.segs[t.snap.seg].state = .active p) (hseat : (s.seats t.snap.seg p).relays = true) :
    RelayLaw (s.sameSegment p t) := by
  unfold State.sameSegment
  split
  · refine h.onHolder hst (u := s.startWait t.snap.seg p) (ElsewhereSame.onSeg s _ _) rfl rfl ?_ ?_ ((h.1 p).enter rfl)
      (HostPort.seat_enter_addressing _ t) (((h.orderly _).holder hst).restart hseat _)
    · rw [State.startWait_segs, tabUpd_self]
      exact (h.orderly _).arbiter.onHolder hst (.inl rfl) rfl
    · rw [State.startWait_segs, tabUpd_self]
      exact hst
  · exact RelayLaw.release h hst (fun _ => rfl) (((h.1 p).toIdle false).record _ t)

/-- A relaying port leaves its segment, and its address is classified (R15 case 2). -/
theorem RelayLaw.leaveSegment {s : State} (h : RelayLaw s) {m : Seg} {p : Port} (hst : s.segs[m].state = .active p)
    (a : Addr) (d : Dir) : RelayLaw (s.leaveSegment m p a d) := by
  obtain ⟨hlaw, haway⟩ := h.release_away hst (g := HostPort.toIdle false) (fun _ => rfl) ((h.1 p).toIdle false)
  exact hlaw.classify haway a d

theorem RelayLaw.addressWhileHolding {s : State} (h : RelayLaw s) {p : Port} {t : Transfer}
    (hc : s.ports[p].ctx = .relayWrite t ∨ s.ports[p].ctx = .relayRead t) (a : Addr) (d : Dir) :
    RelayLaw (s.addressWhileHolding t.snap.seg p a d) := by
  have hst := h.relay_holder hc
  unfold State.addressWhileHolding
  split
  · exact h.leaveSegment hst a d
  · split
    · split
      · rename_i n _ hn
        refine h.sameSegment (t := { vaddr := a, dir := d, snap := n }) ?_ ?_
        · exact (congrArg (fun m : Seg => s.segs[m].state) hn).trans hst
        · exact (congrArg (fun m : Seg => (s.seats m p).relays) hn).trans (State.seats_relays hc)
      · exact h.leaveSegment hst a d
    · exact h.leaveSegment hst a d

theorem RelayLaw.addressByte {s : State} (h : RelayLaw s) (p : Port) (a : Addr) (d : Dir) :
    Ensures (execAddressByte p a d s) RelayLaw := by
  unfold execAddressByte
  dsimp only
  split
  · exact ensures_refused
  · split
    · rename_i hc _
      exact ensures_next.2 (h.classify (State.seats_untransferred (by rw [hc]; rfl)) a d)
    · rename_i hc _
      exact ensures_next.2 (h.toIdle (State.seats_untransferred (by rw [hc]; rfl)) false)
    · exact ensures_next.2 (h.addressWhileHolding (.inl ‹_›) a d)
    · exact ensures_next.2 (h.addressWhileHolding (.inr ‹_›) a d)
    · exact ensures_next.2 (h.classify (State.seats_broken ‹_›) a d)
    · exact ensures_refused

/-! ### Starts and stops -/

theorem RelayLaw.startCondition {s : State} (h : RelayLaw s) (p : Port) : Ensures (s.startCondition p) RelayLaw := by
  unfold State.startCondition
  dsimp only
  split
  · exact ensures_refused
  · rename_i hclock
    rw [Bool.not_eq_true] at hclock
    have hexpect (hr : s.ports[p].ctx.isRelay = true) :
        RelayLaw (s.onPort p (fun h => { h with addrExpected := true }.await [])) :=
      h.onPort ((h.1 p).expectAddress hclock hr) fun _ => rfl
    cases hc : s.ports[p].ctx with
    | idle => exact ensures_next.2 (h.toIdle (State.seats_untransferred (by rw [hc]; rfl)) true)
    | commandIn => exact ensures_next.2 ((h.toIdle (State.seats_untransferred (by rw [hc]; rfl)) true).takeFrame p)
    | responseOut pos closed => exact ensures_next.2 (h.toIdle (State.seats_untransferred (by rw [hc]; rfl)) true)
    | broken t => exact ensures_next.2 (h.toIdle (State.seats_broken hc) true)
    | relayWrite t => exact ensures_next.2 (hexpect (by rw [hc]; rfl))
    | relayRead t => exact ensures_next.2 (hexpect (by rw [hc]; rfl))
    | waiting t => exact ensures_refused
    | addressing t => exact ensures_refused

/-- A relayed transfer ends (R13, R14, R19). -/
theorem RelayLaw.endRelay {s : State} (h : RelayLaw s) {p : Port} {t : Transfer}
    (hc : s.ports[p].ctx = .relayWrite t ∨ s.ports[p].ctx = .relayRead t) : RelayLaw (s.endRelay t.snap.seg p) :=
  h.release (h.relay_holder hc) (g := HostPort.toIdle false) (fun _ => rfl) ((h.1 p).toIdle false)

theorem RelayLaw.stop {s : State} (h : RelayLaw s) (p : Port) : Ensures (execStop p s) RelayLaw := by
  unfold execStop
  dsimp only
  split
  · exact ensures_refused
  · cases hc : s.ports[p].ctx with
    | idle => exact ensures_next.2 (h.toIdle (State.seats_untransferred (by rw [hc]; rfl)) false)
    | commandIn => exact ensures_next.2 ((h.toIdle (State.seats_untransferred (by rw [hc]; rfl)) false).takeFrame p)
    | responseOut pos closed => exact ensures_next.2 (h.toIdle (State.seats_untransferred (by rw [hc]; rfl)) false)
    | broken t => exact ensures_next.2 (h.toIdle (State.seats_broken hc) false)
    | relayWrite t => exact ensures_next.2 (h.endRelay (.inl hc))
    | relayRead t => exact ensures_next.2 (h.endRelay (.inr hc))
    | waiting t => exact ensures_refused
    | addressing t => exact ensures_refused

/-! ### Data bytes and the host's answers -/

/-- A relaying port goes on relaying, its engine with it, its arbiter untouched. -/
theorem RelayLaw.onRelay {s : State} (h : RelayLaw s) {m : Seg} {p : Port} {x : Seat} (hst : s.segs[m].state = .active p)
    (hp : (s.seats m p).relays = true) (hrelays : x.relays = true) {g : HostPort → HostPort} (hl : (g s.ports[p]).Lawful)
    (hx : (g s.ports[p]).seat m = x) {e : Engine → Engine} (he : (e s.engines[m]).Fits (.serving p x)) :
    RelayLaw ((s.onPort p g).onEngine m e) :=
  h.onHolder hst (ElsewhereSame.refl m s) rfl rfl ((h.orderly m).arbiter.onRelay hst hp hrelays) hst hl hx he

/-- A data byte of a relayed write is handed to the engine (R13, R81). -/
theorem RelayLaw.relayWriteByte {s : State} (h : RelayLaw s) {p : Port} {t : Transfer} (hc : s.ports[p].ctx = .relayWrite t)
    (haddr : s.ports[p].addrExpected = false) (b : Byte) :
    RelayLaw ((s.onPort p HostPort.hold).onEngine t.snap.seg (Engine.clockWrite b)) := by
  have hst := h.relay_holder (.inl hc)
  have hseat : s.seats t.snap.seg p = .writing s.ports[p].byteInHand := State.seats_writing.2 ⟨t, hc, rfl, rfl⟩
  have he := (h.orderly t.snap.seg).holder hst
  rw [hseat] at he
  refine h.onRelay hst (State.seats_relays (.inl hc)) rfl ((h.1 p).hold (by rw [hc]; rfl) haddr) ?_ (he.clockWrite b)
  simp only [HostPort.seat, HostPort.hold]
  rw [hc]
  simp

/-- The host asks for another byte of a relayed read (R14, R84). -/
theorem RelayLaw.relayReadNext {s : State} (h : RelayLaw s) {p : Port} {t : Transfer} (hc : s.ports[p].ctx = .relayRead t)
    (haddr : s.ports[p].addrExpected = false) (hopen : s.ports[p].readClosed = false) :
    RelayLaw ((s.onPort p HostPort.hold).onEngine t.snap.seg Engine.ackAndFetch) := by
  have hst := h.relay_holder (.inr hc)
  have hseat : s.seats t.snap.seg p = .reading s.ports[p].byteInHand false := State.seats_reading.2 ⟨t, hc, rfl, rfl, hopen⟩
  have he := (h.orderly t.snap.seg).holder hst
  rw [hseat] at he
  refine h.onRelay hst (State.seats_relays (.inr hc)) rfl ((h.1 p).hold (by rw [hc]; rfl) haddr) ?_ he.ackAndFetch
  simp only [HostPort.seat, HostPort.hold]
  rw [hc, hopen]
  simp

/-- The host closes a relayed read (R14, R85). -/
theorem RelayLaw.relayReadClose {s : State} (h : RelayLaw s) {p : Port} {t : Transfer} (hc : s.ports[p].ctx = .relayRead t)
    (hclock : s.ports[p].clockHeld = false) :
    RelayLaw ((s.onPort p (fun h => { h with readClosed := true }.await [])).onEngine t.snap.seg Engine.nackSlot) := by
  have hst := h.relay_holder (.inr hc)
  obtain ⟨hbyte, -⟩ := (h.1 p).released hclock
  have hseat : s.seats t.snap.seg p = .reading false s.ports[p].readClosed := State.seats_reading.2 ⟨t, hc, rfl, hbyte, rfl⟩
  have he := (h.orderly t.snap.seg).holder hst
  rw [hseat] at he
  have hclosed : ({ s.ports[p] with readClosed := true } : HostPort).Lawful := h.1 p
  have htimed : s.ports[p].ctx.timed = true := by rw [hc]; rfl
  refine h.onRelay (g := fun h => { h with readClosed := true }.await []) hst (State.seats_relays (.inr hc)) rfl
    (hclosed.await hclock htimed []) ?_ he.nackSlot
  simp only [HostPort.seat, HostPort.await]
  rw [hc, hbyte]
  simp

theorem RelayLaw.dataByte {s : State} (h : RelayLaw s) (p : Port) (b : Byte) : Ensures (execDataByte p b s) RelayLaw := by
  unfold execDataByte
  dsimp only
  split
  · exact ensures_refused
  · rename_i hclock
    rw [Bool.not_eq_true] at hclock
    cases hc : s.ports[p].ctx with
    | idle => exact ensures_next.2 (h.quietUpstream p)
    | commandIn =>
      refine ensures_next.2 ?_
      unfold State.frameByte
      split
      · exact (h.await hclock (by rw [hc]; rfl) _).of_relayPath rfl
      · exact (h.await hclock (by rw [hc]; rfl) _).of_relayPath rfl
    | relayWrite t =>
      dsimp only
      split
      · exact ensures_refused
      · rename_i haddr
        split
        · exact ensures_next.2 (h.relayWriteByte hc (by simpa using haddr) b)
        · exact ensures_fault
    | broken t =>
      dsimp only
      split
      · exact ensures_refused
      · split
        · have htimed : s.ports[p].ctx.timed = true := by rw [hc]; rfl
          exact ensures_next.2 (h.onPort (((h.1 p).record .broken t).await hclock htimed []) fun _ => rfl)
        · exact ensures_refused
    | relayRead t =>
      dsimp only
      split <;> exact ensures_refused
    | responseOut pos closed => exact ensures_refused
    | waiting t => exact ensures_refused
    | addressing t => exact ensures_refused

theorem RelayLaw.hostAcknowledge {s : State} (h : RelayLaw s) (p : Port) : Ensures (execHostAcknowledge p s) RelayLaw := by
  unfold execHostAcknowledge
  dsimp only
  split
  · exact ensures_refused
  · rename_i hclock
    rw [Bool.not_eq_true] at hclock
    cases hc : s.ports[p].ctx with
    | idle => exact ensures_next.2 (h.quietUpstream p)
    | responseOut pos closed =>
      dsimp only
      split
      · exact ensures_next.2 (h.await hclock (by rw [hc]; rfl) [])
      · exact ensures_next.2 (h.respond hc hclock (pos + 1) false _)
    | relayRead t =>
      dsimp only
      split
      · exact ensures_refused
      · rename_i haddr
        split
        · exact ensures_next.2 (h.await hclock (by rw [hc]; rfl) [])
        · rename_i hopen
          split
          · exact ensures_next.2 (h.relayReadNext hc (by simpa using haddr) (by simpa using hopen))
          · exact ensures_fault
    | broken t =>
      dsimp only
      split
      · exact ensures_refused
      · split
        · exact ensures_next.2 (h.await hclock (by rw [hc]; rfl) [])
        · exact ensures_refused
    | relayWrite t =>
      dsimp only
      split <;> exact ensures_refused
    | commandIn => exact ensures_refused
    | waiting t => exact ensures_refused
    | addressing t => exact ensures_refused

theorem RelayLaw.hostNotAcknowledge {s : State} (h : RelayLaw s) (p : Port) :
    Ensures (execHostNotAcknowledge p s) RelayLaw := by
  unfold execHostNotAcknowledge
  dsimp only
  split
  · exact ensures_refused
  · rename_i hclock
    rw [Bool.not_eq_true] at hclock
    cases hc : s.ports[p].ctx with
    | idle => exact ensures_next.2 (h.quietUpstream p)
    | responseOut pos closed => exact ensures_next.2 (h.respond hc hclock pos true [])
    | relayRead t =>
      dsimp only
      split
      · exact ensures_refused
      · split
        · exact ensures_next.2 (h.await hclock (by rw [hc]; rfl) [])
        · split
          · exact ensures_next.2 (h.relayReadClose hc hclock)
          · exact ensures_fault
    | broken t =>
      dsimp only
      split
      · exact ensures_refused
      · split
        · exact ensures_next.2 (h.await hclock (by rw [hc]; rfl) [])
        · exact ensures_refused
    | relayWrite t =>
      dsimp only
      split <;> exact ensures_refused
    | commandIn => exact ensures_refused
    | waiting t => exact ensures_refused
    | addressing t => exact ensures_refused

/-! ### Expiries at a port (R19, R60, R61) -/

theorem RelayLaw.abandonExpiry {s : State} (h : RelayLaw s) (p : Port) : Ensures (execAbandonExpiry p s) RelayLaw := by
  unfold execAbandonExpiry
  split
  · exact ensures_refused
  · cases hc : s.ports[p].ctx with
    | relayWrite t => exact ensures_next.2 ((h.endRelay (.inl hc)).of_relayPath rfl)
    | relayRead t => exact ensures_next.2 ((h.endRelay (.inr hc)).of_relayPath rfl)
    | broken t => exact ensures_next.2 ((h.toIdle (State.seats_broken hc) false).of_relayPath rfl)
    | commandIn =>
      exact ensures_next.2 ((h.toIdle (State.seats_untransferred (by rw [hc]; rfl)) false).of_relayPath rfl)
    | responseOut pos closed =>
      exact ensures_next.2 ((h.toIdle (State.seats_untransferred (by rw [hc]; rfl)) false).of_relayPath rfl)
    | idle => exact ensures_fault
    | waiting t => exact ensures_fault
    | addressing t => exact ensures_fault

theorem RelayLaw.waitExpiry {s : State} (h : RelayLaw s) (p : Port) : Ensures (execWaitExpiry p s) RelayLaw := by
  unfold execWaitExpiry
  split
  · split
    · exact ensures_next.2 (h.expireQueued ‹_›)
    · exact ensures_refused
  · split
    · exact ensures_next.2 (h.expireAddressing ‹_›)
    · exact ensures_refused
  · exact ensures_refused

end Sys2Proof.Machine
end

section
/-! SUPPORT. The law of the relay path through the segment rows, device reset and the passage of time. -/

namespace Sys2Proof.Machine

open Function (update update_apply)

/-- A change of an engine alone. -/
theorem RelayLaw.onEngine {s : State} (h : RelayLaw s) {m : Seg} {f : Engine → Engine}
    (hf : (f s.engines[m]).Fits (s.duty m)) : RelayLaw (s.onEngine m f) := by
  refine h.of_segment h.1 (ElsewhereSame.onEngine s m f) ⟨(h.orderly m).arbiter, ?_⟩
  rw [State.onEngine_self]
  exact hf

/-! ### The address phase (R77 to R80) -/

theorem RelayLaw.lineCheckPassed {s : State} (h : RelayLaw s) (m : Seg) : Ensures (execLineCheckPassed m s) RelayLaw := by
  unfold execLineCheckPassed
  dsimp only
  split
  · rename_i hmay
    simp only [Engine.mayStart, Bool.and_eq_true, decide_eq_true_eq] at hmay
    split
    · exact ensures_next.2 (h.onEngine ((h.orderly m).engine.driveStart SegState.duty_released hmay.1))
    · exact ensures_fault
  · exact ensures_refused

/-- The seat of a port whose target has acknowledged its address (R79). -/
theorem HostPort.seat_addressAcknowledged (h : HostPort) (t : Transfer) :
    (h.addressAcknowledged t).seat t.snap.seg = acknowledgedSeat t.dir := by
  unfold HostPort.addressAcknowledged acknowledgedSeat
  cases t.dir <;> simp [HostPort.seat, HostPort.answer, HostPort.hold]

theorem RelayLaw.targetAcknowledgesAddress {s : State} (h : RelayLaw s) (m : Seg) :
    Ensures (execTargetAcknowledgesAddress m s) RelayLaw := by
  unfold execTargetAcknowledgesAddress
  split
  · rename_i hclocks
    split
    · rename_i p t hserved
      obtain ⟨hst, hctx, hseat⟩ := (h.orderly m).servedAddressing hserved
      obtain ⟨u, hu, hseg, -⟩ := State.seats_addressing.1 hseat
      obtain rfl : t = u := Ctx.addressing.inj (hctx.symm.trans hu)
      subst hseg
      have he := (h.orderly _).holder hst
      rw [hseat] at he
      refine ensures_next.2 (h.onHolder hst (u := s.stopWait t.snap.seg p) (ElsewhereSame.onSeg s _ _) rfl rfl ?_ ?_
        ((h.1 p).addressAcknowledged hctx) (HostPort.seat_addressAcknowledged _ t) (he.addressAcknowledged hclocks))
      · rw [State.stopWait_segs, tabUpd_self]
        refine (h.orderly _).arbiter.onHolder hst (.inr ?_) ?_ <;> cases t.dir <;> rfl
      · rw [State.stopWait_segs, tabUpd_self]
        exact hst
    · exact ensures_fault
  · exact ensures_refused

theorem RelayLaw.targetNack {s : State} (h : RelayLaw s) (m : Seg) : Ensures (execTargetNack m s) RelayLaw := by
  unfold execTargetNack
  split
  · rename_i hclocks
    split
    · rename_i p t hserved
      obtain ⟨hst, -, hseat⟩ := (h.orderly m).servedAddressing hserved
      have he := (h.orderly m).holder hst
      rw [hseat] at he
      have hleft : Departed m p s (s.refuse p .targetNack t) := Departed.onPort (by rw [hseat]; simp) fun _ => rfl
      obtain ⟨helse, horderly, -⟩ := hleft.releaseBy (h.orderly m).arbiter hst (he.nackStop hclocks)
      exact ensures_next.2 (h.of_segment ((h.1.refuse p _ t).releaseBy m p _) helse horderly)
    · exact ensures_fault
  · exact ensures_refused

/-! ### Bytes (R81, R83, R90, R91) -/

/-- A relayed byte is answered: none is in hand any more. -/
theorem HostPort.seat_answer {h : HostPort} {m : Seg} (acts : List UpAct) :
    (∀ b, h.seat m = .writing b → (h.answer acts).seat m = .writing false) ∧
      ∀ b c, h.seat m = .reading b c → (h.answer acts).seat m = .reading false c := by
  unfold HostPort.seat HostPort.answer
  cases h.ctx <;> grind

theorem RelayLaw.writeByteAnswered {s : State} (h : RelayLaw s) (m : Seg) (acked : Bool) :
    Ensures (execWriteByteAnswered m acked s) RelayLaw := by
  unfold execWriteByteAnswered
  split
  · rename_i hclocks
    split
    · rename_i p t hserved
      obtain ⟨hst, hrelay, hseat, -⟩ := (h.orderly m).servedRelay hserved
      obtain ⟨hwriting, he⟩ := ((h.orderly m).holder hst).writeAnswered hclocks
      exact ensures_next.2 (h.onRelay hst hseat rfl ((h.1 p).answer hrelay _) ((HostPort.seat_answer _).1 _ hwriting) he)
    · exact ensures_fault
  · exact ensures_refused

theorem RelayLaw.readByteFetched {s : State} (h : RelayLaw s) (m : Seg) (b : Byte) :
    Ensures (execReadByteFetched m b s) RelayLaw := by
  unfold execReadByteFetched
  split
  · rename_i hclocks
    split
    · rename_i p t hserved
      obtain ⟨hst, hrelay, hseat, -⟩ := (h.orderly m).servedRelay hserved
      obtain ⟨hreading, he⟩ := ((h.orderly m).holder hst).readFetched hclocks
      exact ensures_next.2 (h.onRelay hst hseat rfl ((h.1 p).answer hrelay _) ((HostPort.seat_answer _).2 _ _ hreading) he)
    · exact ensures_fault
  · exact ensures_refused

theorem RelayLaw.closingByteFinished {s : State} (h : RelayLaw s) (m : Seg) (acked : Bool) :
    Ensures (execClosingByteFinished m acked s) RelayLaw := by
  unfold execClosingByteFinished
  split
  · rename_i hclosing
    rw [Bool.and_eq_true] at hclosing
    exact ensures_next.2 (h.onEngine ((h.orderly m).engine.finishClosing hclosing.1 acked))
  · exact ensures_refused

theorem RelayLaw.stopComplete {s : State} (h : RelayLaw s) (m : Seg) : Ensures (execStopComplete m s) RelayLaw := by
  unfold execStopComplete
  split
  · rename_i hs
    have he := (h.orderly m).engine
    refine ensures_next.2 (h.onEngine (he.stopCompleted hs (fun p x hd => ?_) _))
    rw [hd] at he
    rw [he.served]
    exact State.targetOf_addressing (SegState.duty_serving.1 hd).2
  · exact ensures_refused

/-! ### Held lines and recoveries (R92, R94, R95, R102 to R107) -/

theorem RelayLaw.lineHeld {s : State} (h : RelayLaw s) (m : Seg) (l : Line) : Ensures (execLineHeld m l s) RelayLaw := by
  have he := (h.orderly m).engine
  unfold execLineHeld
  dsimp only
  split
  · exact ensures_next.2 (h.onEngine (he.timeLine ‹_› _))
  · split
    · rename_i htest
      rw [Bool.and_eq_true] at htest
      exact ensures_next.2 (h.onEngine (he.tested htest.2 (.inl rfl)))
    · exact ensures_next.2 h

theorem RelayLaw.lineReleased {s : State} (h : RelayLaw s) (m : Seg) (l : Line) :
    Ensures (execLineReleased m l s) RelayLaw := by
  have he := (h.orderly m).engine
  unfold execLineReleased
  split
  · rename_i htest
    rw [Bool.and_eq_true] at htest
    exact ensures_next.2 (h.onEngine (he.tested htest.2 (.inr rfl)))
  · exact ensures_next.2 (h.onEngine (he.lineReleased l))

/-- The holder that an engine serves in ADDRESSING. -/
theorem State.duty_addressing {s : State} {m : Seg} {p : Port} {x : Addr × Dir} (hd : s.duty m = .serving p (.addressing x)) :
    s.segs[m].state = .active p ∧ (s.seats m p).addresses = true := by
  obtain ⟨hst, hseat⟩ := SegState.duty_serving.1 hd
  exact ⟨hst, by rw [hseat]; rfl⟩

/-- The hold timer expires while the engine closes, or in STOPPING (R92, R103). -/
theorem RelayLaw.holdExpiryUnserved {s : State} (h : RelayLaw s) {m : Seg}
    (hc : s.engines[m].isClosing = true ∨ s.engines[m].state = .stopping) : RelayLaw (s.holdExpiryUnserved m) := by
  have he := (h.orderly m).engine
  have hduty : (s.duty m = .free ∨ s.duty m = .released) ∧ s.engines[m].served = none ∨
      ∃ p x, s.duty m = .serving p (.addressing x) ∧ s.engines[m].served = some p :=
    hc.elim (fun hc => (he.closing hc).2) (fun hs => (he.stopping hs).2.2)
  have hfree : s.segs[m].state = .idle ∨ s.segs[m].state = .disabled ∨
      ∃ p, s.segs[m].state = .active p ∧ (s.seats m p).addresses = true := by
    obtain ⟨hfree | hreleased, -⟩ | ⟨p, x, hd, -⟩ := hduty
    · exact (SegState.duty_free.1 hfree).imp_right .inl
    · exact absurd hreleased SegState.duty_released
    · exact .inr (.inr ⟨p, State.duty_addressing hd⟩)
  unfold State.holdExpiryUnserved
  split
  · rename_i hst
    exact h.onEngine (Engine.toQuiet_fits he.tries (.inl (SegState.duty_free.2 (.inr hst))))
  · rename_i hst
    exact h.beginRecovery (hfree.imp_right fun hfree => .inr (hfree.resolve_left hst)) none

/-- The hold timer expires in the data phase (R95, R102). -/
theorem RelayLaw.holdExpiryInData {s : State} (h : RelayLaw s) {m : Seg} {p : Port} {t : Transfer}
    (hserved : s.servedRelay m = some (p, t)) :
    RelayLaw ((s.breakPort m p t .holdExpired).beginRecovery m (some p)) := by
  obtain ⟨hst, hrelay, hseat, -⟩ := (h.orderly m).servedRelay hserved
  exact h.breakAndRecover hst hrelay hseat t _ _

theorem RelayLaw.holdTimerExpiry {s : State} (h : RelayLaw s) (m : Seg) : Ensures (execHoldTimerExpiry m s) RelayLaw := by
  unfold execHoldTimerExpiry
  dsimp only
  split
  · exact ensures_refused
  · split
    · exact ensures_next.2 (h.holdExpiryUnserved (.inl ‹_›))
    · rename_i hc
      rw [Bool.not_eq_true] at hc
      have hrecover (hs : s.engines[m].state = .starting ∨ s.engines[m].state = .address) :
          RelayLaw (s.beginRecovery m none) := by
        obtain ⟨p, x, hd⟩ := (h.orderly m).engine.addressPhase SegState.duty_released hc hs
        exact h.beginRecovery (.inr (.inr ⟨p, State.duty_addressing hd⟩)) none
      cases hs : s.engines[m].state with
      | stopping => exact ensures_next.2 (h.holdExpiryUnserved (.inr hs))
      | starting => exact ensures_next.2 (hrecover (.inl hs))
      | address => exact ensures_next.2 (hrecover (.inr hs))
      | writing =>
        dsimp only
        split
        · exact ensures_next.2 (h.holdExpiryInData ‹_›)
        · exact ensures_fault
      | reading =>
        dsimp only
        split
        · exact ensures_next.2 (h.holdExpiryInData ‹_›)
        · exact ensures_fault
      | recovering =>
        have hfails := h.recoveryFails hs (f := id) (h.orderly m).engine.tries []
        rw [State.onEngine_eq_self rfl] at hfails
        exact ensures_next.2 hfails
      | quiet => exact ensures_fault

theorem RelayLaw.recoveryPulse {s : State} (h : RelayLaw s) (m : Seg) (dataHigh : Bool) :
    Ensures (execRecoveryPulse m dataHigh s) RelayLaw := by
  have he := (h.orderly m).engine
  unfold execRecoveryPulse
  dsimp only
  split
  · rename_i hpulse
    split
    · have hs : s.engines[m].state = .recovering := by
        simp only [Engine.atPulse, Bool.and_eq_true, decide_eq_true_eq] at hpulse
        exact hpulse.1
      exact ensures_next.2 (h.recoveryFails hs (f := Engine.pulsed dataHigh) he.tries [.pulse])
    · rename_i hlast
      refine ensures_next.2 (h.onEngine (he.pulsed hpulse dataHigh ?_))
      simp only [Bool.and_eq_true, Bool.not_eq_true', Config.pulseLimit] at hlast
      grind
  · exact ensures_refused

theorem RelayLaw.recoverySucceeded {s : State} (h : RelayLaw s) (m : Seg) : Ensures (execRecoverySucceeded m s) RelayLaw := by
  unfold execRecoverySucceeded
  split
  · rename_i hs
    exact ensures_next.2 (h.recoverySucceeds hs.1)
  · exact ensures_refused

/-! ### Foreign masters (R96 to R101) -/

theorem RelayLaw.arbitrationLoss {s : State} (h : RelayLaw s) (m : Seg) : Ensures (execArbitrationLoss m s) RelayLaw := by
  unfold execArbitrationLoss
  split
  · exact h.lose m
  · exact ensures_refused

/-- The foreign-busy flag is outside R75 (R96). -/
theorem RelayLaw.foreign {s : State} (h : RelayLaw s) (m : Seg) (busy : Bool) :
    RelayLaw (s.onEngine m (fun e => { e with foreignBusy := busy })) :=
  h.onEngine ((h.orderly m).engine.foreign busy _)

theorem RelayLaw.foreignStart {s : State} (h : RelayLaw s) (m : Seg) : Ensures (execForeignStart m s) RelayLaw := by
  unfold execForeignStart
  dsimp only
  split
  · exact h.lose m
  · split
    · exact ensures_next.2 h
    · exact ensures_next.2 (h.foreign m true)

theorem RelayLaw.foreignStop {s : State} (h : RelayLaw s) (m : Seg) (linesHigh : Bool) :
    Ensures (execForeignStop m linesHigh s) RelayLaw := by
  have hcleared : RelayLaw (s.onEngine m Engine.clearForeign) := h.foreign m false
  unfold execForeignStop
  dsimp only
  split
  · exact h.lose m
  · split
    · exact ensures_next.2 h
    · split
      · split
        · exact ensures_next.2 h
        · exact ensures_next.2 hcleared
      · split
        · split
          · rename_i hstart
            simp only [Bool.and_eq_true, decide_eq_true_eq] at hstart
            obtain ⟨⟨-, hs⟩, -⟩ := hstart
            split
            · refine ensures_next.2 (hcleared.onEngine ?_)
              have he := (hcleared.orderly m).engine
              rw [State.onEngine_self] at he ⊢
              exact he.driveStart SegState.duty_released hs
            · exact ensures_fault
          · exact ensures_next.2 hcleared
        · exact ensures_next.2 h

/-! ### Device reset and time -/

/-- The arbiter of a segment after device reset, nobody having a seat at it (R55). -/
theorem Arbiter.reset_fits {seat : Port → Seat} (h : ∀ p, seat p = .away) : Arbiter.reset.Fits seat := by
  refine ⟨⟨fun p => ?_, List.nodup_nil, Nat.zero_le _, fun p => ?_⟩,
    SegState.allows_nobody (fun p => .inl (h p)) (SegState.not_names_free (.inl rfl)),
    ⟨fun _ => ⟨rfl, rfl⟩, fun hoff => SegState.noConfusion hoff, fun _ => rfl⟩, ?_⟩
  · simp [Arbiter.reset, h p]
  · rw [h p]
    simp [Arbiter.reset, Timer.isRunning, Seat.timed]
  · unfold Arbiter.Bounded
    decide

/-- Device reset (R1, R55, R74). -/
theorem RelayLaw.reset (adr admSel : BitVec 2) : RelayLaw (State.resetWith adr admSel) := by
  have hport (p : Port) : (State.resetWith adr admSel).ports[p] = HostPort.reset := by simp [State.resetWith]
  have hseg (m : Seg) : (State.resetWith adr admSel).segs[m] = Arbiter.reset := by simp [State.resetWith]
  have hengine (m : Seg) : (State.resetWith adr admSel).engines[m] = Engine.reset := by simp [State.resetWith]
  refine (relayLaw_iff _).2 ⟨fun p => ?_, fun m => ⟨?_, ?_⟩⟩
  · rw [hport]
    exact ⟨rfl, fun hbyte => Bool.noConfusion hbyte, rfl, fun _ => rfl, Nat.zero_le _⟩
  · rw [hseg]
    exact Arbiter.reset_fits fun p => State.seats_untransferred (by rw [hport]; rfl) m
  · rw [hengine, State.duty, hseg]
    exact Engine.toQuiet_fits (e := Engine.reset) (Nat.zero_le _) (.inl rfl)

/-- One tick passes. -/
theorem RelayLaw.tick {s : State} (h : RelayLaw s) : RelayLaw s.tick := by
  obtain ⟨hports, hsegs⟩ := (relayLaw_iff s).1 h
  have hport (p : Port) : s.tick.ports[p] = { s.ports[p] with abandon := s.ports[p].abandon.tick } := by
    simp [State.tick]
  have hseats (m : Seg) : s.tick.seats m = s.seats m := by
    funext p
    unfold State.seats
    rw [hport]
    rfl
  have hseg (m : Seg) : s.tick.segs[m] = { s.segs[m] with waits := tabMap s.segs[m].waits Timer.tick } := by
    simp [State.tick]
  refine (relayLaw_iff _).2 ⟨fun p => ?_, fun m => ⟨?_, ?_⟩⟩
  · rw [hport]
    obtain ⟨hclock, hbyte, htimer, haddr, hcount⟩ := hports p
    exact ⟨hclock, hbyte, by rw [Timer.tick_isRunning]; exact htimer, haddr, hcount⟩
  · rw [hseg, hseats]
    exact (hsegs m).arbiter.tick
  · have hengine : s.tick.engines[m] = { s.engines[m] with hold := s.engines[m].hold.tick } := by
      simp [State.tick]
    rw [hengine, State.duty, hseg, hseats]
    exact (hsegs m).engine.tick

/-! ### Every row -/

theorem RelayLaw.leaseExpiry {s : State} (h : RelayLaw s) (e : EntryIx) : Ensures (execLeaseExpiry e s) RelayLaw := by
  unfold execLeaseExpiry
  split
  · exact ensures_next.2 (h.of_relayPath (State.expireLease_relayPath s _))
  · exact ensures_refused

theorem RelayLaw.badCommand {s : State} (h : RelayLaw s) (p : Port) (code : Byte) :
    Ensures (execBadCommand p code s) RelayLaw := by
  unfold execBadCommand
  split
  · exact ensures_refused
  · split
    · exact ensures_next.2 (h.of_relayPath rfl)
    · exact ensures_refused

theorem RelayLaw.deviceReset (s : State) (adr admSel : BitVec 2) : Ensures (execDeviceReset adr admSel s) RelayLaw :=
  ensures_next.2 ((RelayLaw.reset adr admSel).of_relayPath rfl)

/-- Every row of the table keeps the law of the relay path: a command is one of `commandRow`. -/
theorem RelayLaw.exec {s : State} (h : RelayLaw s) (i : Instr) : Ensures (exec i s) RelayLaw := by
  cases i with
  | deviceReset adr admSel => exact RelayLaw.deviceReset s adr admSel
  | start p => exact h.startCondition p
  | repeatedStart p => exact h.startCondition p
  | addressByte p a d => exact h.addressByte p a d
  | dataByte p b => exact h.dataByte p b
  | hostAcknowledge p => exact h.hostAcknowledge p
  | hostNotAcknowledge p => exact h.hostNotAcknowledge p
  | stop p => exact h.stop p
  | abandonExpiry p => exact h.abandonExpiry p
  | waitExpiry p => exact h.waitExpiry p
  | lineCheckPassed m => exact h.lineCheckPassed m
  | targetAcknowledgesAddress m => exact h.targetAcknowledgesAddress m
  | targetNack m => exact h.targetNack m
  | writeByteAnswered m acked => exact h.writeByteAnswered m acked
  | readByteFetched m b => exact h.readByteFetched m b
  | closingByteFinished m acked => exact h.closingByteFinished m acked
  | stopComplete m => exact h.stopComplete m
  | holdTimerExpiry m => exact h.holdTimerExpiry m
  | recoveryPulse m dataHigh => exact h.recoveryPulse m dataHigh
  | recoverySucceeded m => exact h.recoverySucceeded m
  | foreignStart m => exact h.foreignStart m
  | foreignStop m linesHigh => exact h.foreignStop m linesHigh
  | arbitrationLoss m => exact h.arbitrationLoss m
  | leaseExpiry e => exact h.leaseExpiry e
  | lineHeld m l => exact h.lineHeld m l
  | lineReleased m l => exact h.lineReleased m l
  | badCommand p code => exact h.badCommand p code
  | _ => exact h.commandRow _ _

/-- Settles O10: the law is that of the ports (R12, R18) and, segment by segment, that the arbiter fits the seats at it and the
engine its duty there; each row changes one segment's arbiter, engine and seats at most, and keeps them fitting. -/
theorem relayLawKept : Obligations.RelayLawKept :=
  keptByStep_of_exec (fun _ _ h => h.of_relayPath rfl) (fun _ h => h.tick) (fun i _ h => h.exec i)

end Sys2Proof.Machine
end

section
/-! SUPPORT. The command SRCV (R110): the recovery it begins, by the segment's state and, where that is ACTIVE, the context of
the holder. -/

namespace Sys2Proof.Machine

/-- A recovery begun on `m` is the state of `m` (R64). -/
theorem State.inRecovery_state (s : State) (m : Seg) (resume broken : Option Port) :
    (s.inRecovery m resume broken).segs[m].state = .recovering resume := by
  simp [State.inRecovery]

/-! ### The recovery that SRCV begins -/

/-- A segment without a holder enters recovery with no resume port and no broken port. -/
theorem State.forceRecovery_free {s : State} {m : Seg} (hst : s.segs[m].state = .idle ∨ s.segs[m].state = .fault) :
    s.forceRecovery m = s.inRecovery m none none := by
  have hbegin := State.beginRecovery_eq none (State.recoveringState_free hst)
  rcases hst with hst | hst <;> simp only [State.forceRecovery, hst, hbegin]

/-- A holder in ADDRESSING is kept as the resume port. -/
theorem State.forceRecovery_addressing {s : State} {m : Seg} {h : Port} {t : Transfer}
    (hst : s.segs[m].state = .active h) (hctx : s.ports[h].ctx = .addressing t) :
    s.forceRecovery m = s.inRecovery m (some h) none := by
  have hbegin := State.beginRecovery_eq none (State.recoveringState_addressing hst hctx)
  simp only [State.forceRecovery, hst, hctx, hbegin]

/-- A relaying holder is broken first, and is the broken port. -/
theorem State.forceRecovery_relay {s : State} {m : Seg} {h : Port} {t : Transfer} (hst : s.segs[m].state = .active h)
    (hctx : s.ports[h].ctx = .relayWrite t ∨ s.ports[h].ctx = .relayRead t) :
    s.forceRecovery m = (s.afterBreak m h t .recoveryForced).inRecovery m none (some h) := by
  have hbegin := State.beginRecovery_eq (some h)
    (State.recoveringState_afterBreak (t := t) (c := .recoveryForced) hst)
  rcases hctx with hctx | hctx <;> simp only [State.forceRecovery, hst, hctx, State.breakPort_eq, hbegin]

/-! ### The command -/

/-- SRCV from its rights step on. -/
theorem exec_srcv {p : Port} {s : State} (hidle : s.ports[p].ctx = .idle) (hright : s.rights[p].rights.segment = true)
    (b : Byte) : exec (.srcv p b) s = .next (s.cmdSrcv p b) :=
  exec_row_permitted (c := .srcv b) ⟨hidle, hright⟩

/-- A command without its right is answered DENIED on an IDLE port, and does nothing else (R144 step 3, R149). -/
theorem exec_row_denied {s : State} {p : Port} {c : Command} (hidle : s.ports[p].ctx = .idle)
    (hright : ¬ Permitted s.rights[p].rights p c) :
    exec (c.row p) s = .next (s.respond p .denied (opCode c.op) []) := by
  rw [exec_row, commandRow_idle hidle, runCommand_denied hright]

/-- On a segment that is IDLE, FAULT or ACTIVE, SRCV is answered ACCEPTED with the state of the recovery it begins. -/
theorem State.cmdSrcv_begins {s u : State} {m : Seg} {resume broken : Option Port}
    (hst : s.segs[m].state = .idle ∨ s.segs[m].state = .fault ∨ ∃ h, s.segs[m].state = .active h)
    (hforce : s.forceRecovery m = u.inRecovery m resume broken) (p : Port) :
    s.cmdSrcv p (segByte m) =
      (u.inRecovery m resume broken).respond p .accepted 0x32#8 [segByte m, 0x03#8] := by
  rcases hst with hst | hst | ⟨h, hst⟩ <;>
  · simp only [State.cmdSrcv, decodeSeg_segByte, hst, hforce, State.inRecovery_state]
    rfl

/-- Settles O34: an SRCV within its rights and arguments acts by the state of the segment. -/
theorem srcvActsBySegmentState : Obligations.SrcvActsBySegmentState := by
  unfold Obligations.SrcvActsBySegmentState
  refine ⟨fun p b s hidle => ⟨fun hright => ?_, fun hright hb => ?_⟩, ?_⟩
  · exact exec_row_denied (c := .srcv b) hidle (Bool.eq_false_iff.1 hright)
  · rw [exec_srcv hidle hright]
    simp only [State.cmdSrcv, decodeSeg_none.2 hb]
    rfl
  intro p m s hidle hright run begun
  have hanswer {t : State} (ht : s.cmdSrcv p (segByte m) = t) : run = .next t := ht ▸ exec_srcv hidle hright _
  refine ⟨fun hst => hanswer ?_, fun h t hst hctx => hanswer ?_, fun h t hst hctx => hanswer ?_, fun q hst => hanswer ?_,
    fun hst => hanswer ?_⟩
  · exact State.cmdSrcv_begins (hst.imp_right .inl) (State.forceRecovery_free hst) p
  · exact State.cmdSrcv_begins (.inr (.inr ⟨h, hst⟩)) (State.forceRecovery_addressing hst hctx) p
  · exact State.cmdSrcv_begins (.inr (.inr ⟨h, hst⟩)) (State.forceRecovery_relay hst hctx) p
  · simp only [State.cmdSrcv, decodeSeg_segByte, hst]
    rfl
  · simp only [State.cmdSrcv, decodeSeg_segByte, hst]
    rfl

end Sys2Proof.Machine
end

section
/-! SUPPORT. The lease commands LREN (R119), LREL with token 0 (R121), LREV (R125) and LQRY (R130), and the expiry of a lease
(R123). -/

namespace Sys2Proof.Machine

/-! ### One record by its status -/

theorem Lease.isHeld_of_held {l : Lease} {t : Byte} {n : Nat} (h : l.status = .held t n) : l.isHeld = true := by
  simp only [Lease.isHeld, h]

theorem Lease.isHeld_of_pending {l : Lease} {k : Nat} (h : l.status = .pending k) : l.isHeld = false := by
  simp only [Lease.isHeld, h]

theorem Lease.token_of_held {l : Lease} {t : Byte} {n : Nat} (h : l.status = .held t n) : l.token = t := by
  simp only [Lease.token, h]

theorem Lease.order_of_pending {l : Lease} {k : Nat} (h : l.status = .pending k) : l.order = k := by
  simp only [Lease.order, h]

/-- The token of a record, 0 while it is PENDING (R125). -/
theorem Lease.token_eq (l : Lease) : l.token = if l.isHeld then l.token else 0#8 := by
  unfold Lease.token Lease.isHeld
  cases l.status <;> rfl

/-- The state and the order that LQRY reports of a HELD record (R130, R158). -/
theorem Lease.report_held {l : Lease} (h : l.isHeld = true) : l.status.code = 0x02#8 ∧ l.order = 0 := by
  unfold Lease.isHeld at h
  unfold Lease.order
  cases hst : l.status with
  | held t n => exact ⟨rfl, rfl⟩
  | pending k => simp [hst] at h

/-! ### The entry's route -/

theorem State.clip_installed {s : State} {e : EntryIx} {r : Route} (h : s.directory[e].route = some r) (d : Nat) :
    s.clip e d = min d r.maxLease := by
  have hr : s.route e = some r := h
  simp only [State.clip, State.maxLeaseOr, hr]

theorem State.segOf_installed {s : State} {e : EntryIx} {r : Route} (h : s.directory[e].route = some r) :
    s.segOf e = some r.seg := by
  have hr : s.route e = some r := h
  simp only [State.segOf, hr, Option.map_some]

/-! ### LREN (R119) -/

theorem exec_lren {p : Port} {s : State} (hidle : s.ports[p].ctx = .idle) (hlease : s.rights[p].rights.lease = true)
    (index token : Byte) (d : Half) : exec (.lren p index token d) s = .next (s.cmdLren p index token d) :=
  exec_row_permitted (c := .lren index token d) ⟨hidle, hlease⟩

theorem decodeLren_entryByte (e : EntryIx) {d : Half} (hd : d ≠ 0#16) :
    decodeLren (entryByte e) d = some (e, d.toNat) := by
  simp [decodeLren, decodeDuration_of_ne hd]

/-- The arguments step of LREN refuses an index above 47 and a duration of 0. -/
theorem decodeLren_none {index : Byte} {d : Half} (h : 47 < index.toNat ∨ d = 0#16) : decodeLren index d = none := by
  rcases h with h | rfl
  · simp [decodeLren, decodeEntry_none.2 h]
  · simp [decodeLren, decodeDuration]

section
variable {s : State} {p : Port} {e : EntryIx} {d : Half} (token : Byte)

theorem State.cmdLren_notHeld (hd : d ≠ 0#16) (h : s.recordOf p e = none) :
    s.cmdLren p (entryByte e) token d = s.respond p .notHeld 0x21#8 [] := by
  simp only [State.cmdLren, decodeLren_entryByte e hd, h]
  rfl

variable {token} {i : Slot} {l : Lease}

theorem State.cmdLren_stale (hd : d ≠ 0#16) (h : s.recordOf p e = some (i, l))
    (hstale : ¬(l.isHeld = true ∧ token = l.token)) :
    s.cmdLren p (entryByte e) token d = s.respond p .stale 0x21#8 [] := by
  simp only [State.cmdLren, decodeLren_entryByte e hd, h, if_neg hstale]
  rfl

theorem State.cmdLren_renews {r : Route} (hd : d ≠ 0#16) (h : s.recordOf p e = some (i, l)) (hheld : l.isHeld = true)
    (hr : s.directory[e].route = some r) :
    s.cmdLren p (entryByte e) l.token d =
      ({ s with leases := s.leases.set i (some
          { l with status := .held l.token (min d.toNat r.maxLease * Config.ticksPerMs) }) }).respond p .ok 0x21#8
        ([entryByte e, l.token] ++ halfBytes (min d.toNat r.maxLease)) := by
  simp only [State.cmdLren, decodeLren_entryByte e hd, h, hheld, and_self, if_true, State.clip_installed hr]
  rfl

end

/-- Settles O25, by the record that the caller has on the entry. -/
theorem lrenRenewsLease : Obligations.LrenRenewsLease := by
  unfold Obligations.LrenRenewsLease
  constructor
  · intro p index token d s hidle hlease hbad
    rw [exec_lren hidle hlease]
    simp only [State.cmdLren, decodeLren_none hbad]
    rfl
  intro p e token d s hidle hlease hd
  dsimp only
  rw [exec_lren hidle hlease]
  refine ⟨fun hnone => by rw [State.cmdLren_notHeld token hd hnone], fun i l hl => ⟨fun k hk => ?_, fun t n ht => ?_⟩⟩
  · rw [State.cmdLren_stale hd hl]
    simp [Lease.isHeld_of_pending hk]
  · obtain rfl := Lease.token_of_held ht
    refine ⟨fun hne => ?_, fun heq r hr => ?_⟩
    · rw [State.cmdLren_stale hd hl fun h => hne h.2]
    · rw [heq, State.cmdLren_renews hd hl (Lease.isHeld_of_held ht) hr]

/-! ### LREL with token 0 (R121) -/

theorem exec_lrelCancel {p : Port} {s : State} (hidle : s.ports[p].ctx = .idle)
    (hlease : s.rights[p].rights.lease = true) (e : EntryIx) :
    exec (.lrelCancel p (entryByte e)) s = .next (s.cancelLease p e) := by
  refine (exec_row_permitted (c := .lrel (entryByte e) 0#8) ⟨hidle, hlease⟩).trans ?_
  simp only [State.perform, State.cmdLrel, decodeEntry_entryByte, if_true]

/-- Freeing a record changes the lease slots alone. -/
theorem State.freeRecord_eq (s : State) (x : Slot × Lease) : s.freeRecord x = { s with leases := (s.freeRecord x).leases } := by
  unfold State.freeRecord State.closeGap State.setLease
  dsimp only
  split <;> rfl

theorem State.cancelLease_pending {s : State} {p : Port} {e : EntryIx} {i : Slot} {l : Lease}
    (h : s.recordOf p e = some (i, l)) (hp : l.isHeld = false) :
    s.cancelLease p e = (s.freeRecord (i, l)).respond p .ok 0x22#8 [entryByte e, 0xFF#8] := by
  simp only [State.cancelLease, h, hp]
  rfl

/-- Settles O27, by the record that the caller has on the entry. -/
theorem lrelCancelWithdraws : Obligations.LrelCancelWithdraws := by
  unfold Obligations.LrelCancelWithdraws
  intro p e s hidle hlease
  dsimp only
  rw [exec_lrelCancel hidle hlease]
  refine ⟨fun hnone => ?_, fun i l hl => ⟨fun t n ht => ?_, fun k hk => ?_⟩⟩
  · simp only [State.cancelLease, hnone]
    rfl
  · simp only [State.cancelLease, hl, Lease.isHeld_of_held ht]
    rfl
  · have hp := Lease.isHeld_of_pending hk
    obtain ⟨-, rfl, -⟩ := State.recordOf_some hl
    obtain rfl := Lease.order_of_pending hk
    refine ⟨(s.freeRecord (i, l)).leases, ?_, ?_, fun j hj o ho => ?_⟩
    · rw [State.cancelLease_pending hl hp, ← State.freeRecord_eq]
    · rw [State.freeRecord_leases, if_pos rfl]
    · rw [State.freeRecord_leases, if_neg hj.symm, ho]
      cases o with
      | none => rfl
      | some x =>
        rw [Option.map_some, Lease.afterFree_pending hp]
        rfl

/-! ### LREV (R125) -/

theorem exec_lrev {p : Port} {s : State} (hidle : s.ports[p].ctx = .idle) (hadmin : s.rights[p].rights.admin = true)
    (index : Byte) : exec (.lrev p index) s = .next (s.cmdLrev p index) :=
  exec_row_permitted (c := .lrev index) ⟨hidle, hadmin⟩

theorem State.cmdLrev_free {s : State} {e : EntryIx} (h : s.directory[e].route = none) (p : Port) :
    s.cmdLrev p (entryByte e) = s.respond p .noEntry 0x23#8 [] := by
  have hr : s.route e = none := h
  simp only [State.cmdLrev, decodeEntry_entryByte, hr]
  rfl

theorem State.cmdLrev_unleased {s : State} {e : EntryIx} {r : Route} (hr : s.directory[e].route = some r)
    (h : s.heldOn e = none) (p : Port) : s.cmdLrev p (entryByte e) = s.respond p .notHeld 0x23#8 [] := by
  have hr : s.route e = some r := hr
  simp only [State.cmdLrev, decodeEntry_entryByte, hr, h]
  rfl

theorem State.cmdLrev_leased {s : State} {e : EntryIx} {r : Route} {i : Slot} {l : Lease}
    (hr : s.directory[e].route = some r) (h : s.heldOn e = some (i, l)) (p : Port) :
    s.cmdLrev p (entryByte e) = (s.clearEntry e .byAdmin .cancelled (some r.seg)).respond p .ok 0x23#8
      [entryByte e, portByte l.port, BitVec.ofNat 8 (s.pendingPorts e).length] := by
  have hr : s.route e = some r := hr
  simp only [State.cmdLrev, decodeEntry_entryByte, hr, h]
  rfl

/-- Settles O28: under R113 the HELD record and the requests behind it are all the records on the entry, and clearing them
touches the leases and the notices alone. -/
theorem lrevRevokesLeases : Obligations.LrevRevokesLeases := by
  unfold Obligations.LrevRevokesLeases
  constructor
  · intro p index s hidle
    refine ⟨fun hadmin => exec_row_denied (c := .lrev index) hidle (Bool.eq_false_iff.1 hadmin), fun hadmin hindex => ?_⟩
    rw [exec_lrev hidle hadmin]
    simp only [State.cmdLrev, decodeEntry_none.2 hindex]
    rfl
  intro p e s hidle hadmin
  dsimp only
  rw [exec_lrev hidle hadmin]
  refine ⟨fun hfree => by rw [State.cmdLrev_free hfree], fun r hr => ⟨fun hnone => ?_, fun i h hheld hlaw => ?_⟩⟩
  · rw [State.cmdLrev_unleased hr hnone]
  · have hclear := State.clearEntry_cleared (hlaw.entryRecords e) .byAdmin .cancelled (some r.seg)
    have same {α : Type} (f : State → α) := congrArg f hclear.rest
    refine ⟨_, congrArg Host.Outcome.next (State.cmdLrev_leased hr hheld p), hclear.leases, fun j l hl he => ?_, hclear.untold,
      State.respond_self .., fun q hq => ?_, same State.ports, ⟨same State.segs, same State.engines⟩,
      ⟨same State.directory, same State.defaults, same State.rights, same State.adr, same State.admSel, same State.pending⟩,
      same State.tokenCounter, same State.buffers⟩
    · rw [← l.token_eq]
      exact hclear.told j l hl he
    · exact (State.respond_other hq ..).trans (congrArg (·[q]) (same State.responses))

/-! ### LQRY (R130, R160) -/

theorem exec_lqry {p : Port} {s : State} (hidle : s.ports[p].ctx = .idle) (index : Byte) :
    exec (.lqry p index) s = .next (s.cmdLqry p index) :=
  exec_row_permitted (c := .lqry index) ⟨hidle, trivial⟩

/-- The state byte of a record, 0 where there is none. -/
def reportState (x : Option (Slot × Lease)) : Byte := x.elim 0x00#8 (·.2.status.code)

/-- The order byte of a record, 0 where there is none. -/
def reportOrder (x : Option (Slot × Lease)) : Byte := x.elim 0x00#8 (fun x => countByte x.2.order)

/-- The holder byte of a record, 0xFF where there is none. -/
def reportHolder (x : Option (Slot × Lease)) : Byte := x.elim absent (fun x => portByte x.2.port)

/-- The token byte of a record for a caller on port `p`, 0 where it is another port's or there is none. -/
def reportToken (p : Port) (x : Option (Slot × Lease)) : Byte :=
  x.elim 0x00#8 (fun x => if x.2.port = p then x.2.token else 0x00#8)

/-- The remaining time of a record in whole ms as the two bytes of a count, 0 where there is none. -/
def reportTime (x : Option (Slot × Lease)) : Half := BitVec.ofNat 16 (x.elim 0 (fun x => roundUpMs x.2.remaining))

/-- LQRY on an INSTALLED entry reports the HELD record of the entry and the caller's own record. -/
theorem State.cmdLqry_installed {s : State} {e : EntryIx} (h : (s.directory[e].route).isSome = true) (p : Port) :
    s.cmdLqry p (entryByte e) = s.respond p .ok 0x24#8
      [entryByte e, s.directory[e].gen, reportState (s.heldOn e), reportHolder (s.heldOn e), reportToken p (s.heldOn e),
        hiByte (reportTime (s.heldOn e)), loByte (reportTime (s.heldOn e)), BitVec.ofNat 8 (s.pendingPorts e).length,
        portOrAbsent (s.pendingPorts e)[0]?, portOrAbsent (s.pendingPorts e)[1]?, portOrAbsent (s.pendingPorts e)[2]?,
        reportState (s.recordOf p e), reportOrder (s.recordOf p e)] := by
  obtain ⟨r, hr⟩ := Option.isSome_iff_exists.1 h
  have hr : s.route e = some r := hr
  simp only [State.cmdLqry, decodeEntry_entryByte, hr]
  cases s.heldOn e <;> cases s.recordOf p e <;> rfl

theorem State.cmdLqry_free {s : State} {e : EntryIx} (h : s.directory[e].route = none) (p : Port) :
    s.cmdLqry p (entryByte e) = s.respond p .noEntry 0x24#8 [] := by
  have hr : s.route e = none := h
  simp only [State.cmdLqry, decodeEntry_entryByte, hr]
  rfl

/-- Settles O29: each byte of the payload is read from the HELD record of the entry or from the caller's own record. -/
theorem lqryReportsLease : Obligations.LqryReportsLease := by
  unfold Obligations.LqryReportsLease
  constructor
  · intro p index s hidle hindex
    rw [exec_lqry hidle]
    simp only [State.cmdLqry, decodeEntry_none.2 hindex]
    rfl
  intro p e s hidle
  rw [exec_lqry hidle]
  refine ⟨fun hfree => by rw [State.cmdLqry_free hfree], fun hinstalled => ?_⟩
  refine ⟨_, _, _, _, _, _, _, by rw [State.cmdLqry_installed hinstalled], fun hnone => ?_, fun i l hl => ?_,
    fun hnone => ?_, fun i l hl => ?_⟩
  · rw [hnone]
    exact ⟨rfl, rfl, rfl, rfl, rfl⟩
  · rw [hl]
    obtain ⟨-, -, hheld⟩ := State.heldOn_some hl
    exact ⟨(Lease.report_held hheld).1, rfl, rfl, rfl⟩
  · rw [hnone]
    exact ⟨rfl, rfl⟩
  · rw [hl]
    refine ⟨fun k hk => ?_, fun hheld => ?_⟩
    · simp [reportState, reportOrder, Lease.order_of_pending hk, hk, LeaseStatus.code, countByte]
    · simp [reportState, reportOrder, Lease.report_held hheld, countByte]

/-! ### The expiry of a lease (R123) -/

theorem exec_leaseExpiry {s : State} {e : EntryIx} {x : Slot × Lease} (h : s.heldOn e = some x) :
    exec (.leaseExpiry e) s = .next (s.expireLease x) := by
  simp only [exec, execLeaseExpiry, h]

/-- The HELD record expires, and the oldest request of its entry is promoted. -/
theorem State.expireLease_held {s : State} {e : EntryIx} {i : Slot} {l : Lease} {r : Route}
    (h : s.heldOn e = some (i, l)) (hr : s.directory[e].route = some r) :
    s.expireLease (i, l) =
      ((s.setLease i none).post l.port .leaseExpired (some e) (some r.seg) l.token).promote e := by
  obtain ⟨-, rfl, hheld⟩ := State.heldOn_some h
  simp only [State.expireLease, State.freeRecord_held hheld, State.segOf_installed hr]

/-- Settles O31: the promotion is that of the state in which the record is freed and its port told. -/
theorem leaseExpiryFreesAndPromotes : Obligations.LeaseExpiryFreesAndPromotes := by
  unfold Obligations.LeaseExpiryFreesAndPromotes
  intro e s i l r hheld hr
  rw [exec_leaseExpiry hheld, State.expireLease_held hheld hr]
  rfl

end Sys2Proof.Machine
end

section
/-! SUPPORT. One Notice Queue: a notice stored, the head fetched, a port reset and a device reset keep it lawful (R135, R137,
R138, R140, R141); the command NFET. -/

namespace Sys2Proof.Machine

/-! ### Sequence numbers without a gap (R135) -/

/-- The `n` sequence numbers that run without a gap up to the counter `c`, the oldest first. -/
def seqsUpTo (c : BitVec 8) (n : Nat) : List (BitVec 8) := (List.range n).map fun i => c - BitVec.ofNat 8 (n - 1 - i)

/-- The law of a queue, with its sequence numbers named. -/
theorem NoticeQueue.lawful_iff (q : NoticeQueue) :
    q.Lawful ↔ q.records.length ≤ 8 ∧ (q.alert = true ↔ q.records ≠ []) ∧ (q.lost ≠ 0 → q.records.length = 8) ∧
      q.lost ≤ 255 ∧ q.records.map Notice.seq = seqsUpTo q.seq q.records.length := Iff.rfl

/-- The counter advanced by one adds its new value at the tail. -/
theorem seqsUpTo_succ (c : BitVec 8) (n : Nat) : seqsUpTo (c + 1#8) (n + 1) = seqsUpTo c n ++ [c + 1#8] := by
  have hback (i : Nat) (hi : i < n) : c + 1#8 - BitVec.ofNat 8 (n - i) = c - BitVec.ofNat 8 (n - 1 - i) := by
    obtain ⟨k, hk⟩ : ∃ k, n - i = k + 1 := ⟨n - i - 1, by omega⟩
    have hk' : n - 1 - i = k := by omega
    rw [hk, hk', BitVec.ofNat_add]
    bv_omega
  unfold seqsUpTo
  rw [List.range_succ, List.map_append]
  congr 1
  · exact List.map_congr_left fun i hi => hback i (List.mem_range.1 hi)
  · simp

/-- Without the oldest number the others still run up to the counter. -/
theorem seqsUpTo_tail (c : BitVec 8) (n : Nat) : (seqsUpTo c n).tail = seqsUpTo c (n - 1) := by
  cases n with
  | zero => rfl
  | succ n =>
    simp only [seqsUpTo, List.range_succ_eq_map, List.map_cons, List.tail_cons, List.map_map, Nat.add_sub_cancel]
    refine List.map_congr_left fun i _ => ?_
    simp only [Function.comp, Nat.succ_eq_add_one]
    congr 2
    omega

/-! ### The law of one queue (R135, R137) -/

/-- A notice stored or lost keeps the law (R135). -/
theorem NoticeQueue.Lawful.store {q : NoticeQueue} (h : q.Lawful) (k : NoticeKind) (e : Option EntryIx) (m : Option Seg)
    (tok : Byte) : (q.store k e m tok).Lawful := by
  obtain ⟨hlen, halert, hlost, hcount, hseq⟩ := q.lawful_iff.1 h
  rw [NoticeQueue.lawful_iff]
  by_cases hroom : q.records.length < 8
  · have hnone : q.lost = 0 := by_contra fun hne => absurd (hlost hne) (Nat.ne_of_lt hroom)
    rw [NoticeQueue.store_room hroom]
    refine ⟨by simpa using hroom, ?_, fun hne => absurd hnone hne, hcount, ?_⟩
    · cases hrec : q.records <;> simp [halert, hrec]
    · simp [hseq, seqsUpTo_succ]
  · have hfull : q.records.length = 8 := by omega
    rw [NoticeQueue.store_full (Nat.le_of_not_lt hroom)]
    exact ⟨hlen, halert, fun _ => hfull, Nat.min_le_left _ _, hseq⟩

/-- The head removed keeps the law (R138). -/
theorem NoticeQueue.Lawful.fetch {q : NoticeQueue} (h : q.Lawful) : q.fetch.Lawful := by
  obtain ⟨hlen, halert, -, -, hseq⟩ := q.lawful_iff.1 h
  rw [NoticeQueue.lawful_iff]
  refine ⟨?_, ?_, fun hne => absurd rfl hne, Nat.zero_le _, ?_⟩
  · simp only [NoticeQueue.fetch, List.length_tail]
    omega
  · have hleft (hrest : q.records.tail ≠ []) : q.records ≠ [] := by
      rintro hnil
      simp [hnil] at hrest
    by_cases hrest : q.records.tail = []
    · simp [NoticeQueue.fetch, hrest]
    · simp [NoticeQueue.fetch, hrest, halert, hleft hrest]
  · simp only [NoticeQueue.fetch, List.map_tail, hseq, seqsUpTo_tail, List.length_tail]

/-- An empty queue with its alert line released, whatever its counter. -/
theorem NoticeQueue.lawful_empty (c : BitVec 8) :
    NoticeQueue.Lawful { records := [], seq := c, lost := 0, alert := false } := by
  simp [NoticeQueue.Lawful]

/-- A port reset leaves the PORT_RESET alone in the queue: as if it were stored in an empty one (R140). -/
theorem NoticeQueue.lawful_portReset (issuer : Port) (q : NoticeQueue) : (q.portReset issuer).Lawful :=
  (NoticeQueue.lawful_empty q.seq).store (.portReset issuer) none none 0#8

/-! ### NFET (R138) -/

/-- Two changes of a Notice Queue that agree on that queue are one change. -/
theorem State.onNotices_congr {s : State} {p : Port} {f g : NoticeQueue → NoticeQueue} (h : f s.notices[p] = g s.notices[p]) :
    s.onNotices p f = s.onNotices p g := by
  simp only [State.onNotices, tabUpd, h]

/-- A change that leaves the queue as it is changes nothing. -/
theorem State.onNotices_eq_self {s : State} {p : Port} {f : NoticeQueue → NoticeQueue} (h : f s.notices[p] = s.notices[p]) :
    s.onNotices p f = s := by
  simp only [State.onNotices, tabUpd_eq_self s.notices p f h]

theorem exec_nfet {p : Port} {s : State} (hidle : s.ports[p].ctx = .idle) : exec (.nfet p) s = .next (s.cmdNfet p) :=
  exec_row_permitted (c := .nfet) ⟨hidle, trivial⟩

/-- A lawful empty queue has nothing for NFET to change. -/
theorem NoticeQueue.Lawful.fetch_empty {q : NoticeQueue} (h : q.Lawful) (hnil : q.records = []) :
    q.fetch = q ∧ q.lost = 0 := by
  obtain ⟨-, halert, hlost, -, -⟩ := q.lawful_iff.1 h
  have hnone : q.lost = 0 := by_contra fun hne => by simpa [hnil] using hlost hne
  have hline : q.alert = false := Bool.eq_false_iff.2 fun hon => halert.1 hon hnil
  obtain ⟨records, seq, lost, alert⟩ := q
  dsimp only at hnil hnone hline
  subst hnil hnone hline
  exact ⟨rfl, rfl⟩

/-- Settles O35: with a head NFET takes it, and without one a lawful queue has neither a loss nor an alert to clear. -/
theorem nfetRemovesOldest : Obligations.NfetRemovesOldest := by
  unfold Obligations.NfetRemovesOldest
  intro p s hidle
  rw [exec_nfet hidle]
  refine ⟨fun n rest hrec => ?_, fun hnil hlaw => ?_⟩
  · have hqueue : s.onNotices p NoticeQueue.fetch = s.onNotices p (fun q =>
        { q with records := rest, lost := 0, alert := if rest = [] then false else q.alert }) :=
      State.onNotices_congr (by simp only [NoticeQueue.fetch, hrec, List.tail_cons, List.isEmpty_iff])
    have hpayload : s.notices[p].fetchPayload =
        n.bytes ++ [countByte s.notices[p].lost, countByte rest.length] := by
      simp only [NoticeQueue.fetchPayload, hrec, List.tail_cons]
    rw [State.cmdNfet, hqueue, hpayload]
    rfl
  · obtain ⟨hsame, hnone⟩ := hlaw.fetch_empty hnil
    have hpayload : s.notices[p].fetchPayload = noNoticeBytes ++ [countByte 0, countByte 0] := by
      simp only [NoticeQueue.fetchPayload, hnil, hnone, List.tail_nil, List.length_nil]
    rw [State.cmdNfet, State.onNotices_eq_self hsame, hpayload]
    rfl

end Sys2Proof.Machine
end

section
/-! SUPPORT. What leaves the Notice Queues alone: the operations of the relay path, the host buses and the Lease Table that post
no notice, and the rows of the table made of them. -/

namespace Sys2Proof.Machine

/-! The relay path. -/

@[simp] theorem State.refuseWaiter_notices (s : State) (m : Seg) (r : Reason) (p : Port) :
    (s.refuseWaiter m r p).notices = s.notices :=
  (s.refuseWaiter_frame m r p).2.1

@[simp] theorem State.refuseAll_notices (m : Seg) (r : Reason) (ps : List Port) (s : State) :
    (State.refuseAll m r ps s).notices = s.notices :=
  (State.refuseAll_frame m r ps s).2.1

@[simp] theorem State.grant_notices (s : State) (m : Seg) (p : Port) (t : Transfer) :
    (s.grant m p t).notices = s.notices := rfl

@[simp] theorem State.enqueue_notices (s : State) (m : Seg) (p : Port) (t : Transfer) :
    (s.enqueue m p t).notices = s.notices := rfl

@[simp] theorem State.arrive_notices (s : State) (p : Port) (t : Transfer) : (s.arrive p t).notices = s.notices := by
  unfold State.arrive
  dsimp only
  repeat' split
  all_goals simp

@[simp] theorem State.serve_notices (m : Seg) (ps : List Port) (s : State) :
    (State.serve m ps s).notices = s.notices := by
  induction ps generalizing s with
  | nil => simp [State.serve]
  | cons p rest ih =>
    unfold State.serve
    dsimp only
    repeat' split
    all_goals simp [ih]

@[simp] theorem State.handOver_notices (s : State) (m : Seg) : (s.handOver m).notices = s.notices := by
  unfold State.handOver
  split
  · simp [State.disableNow]
  · simp

@[simp] theorem State.releaseBy_notices (s : State) (m : Seg) (p : Port) (f : Engine → Engine) :
    (s.releaseBy m p f).notices = s.notices := by
  simp [State.releaseBy]

@[simp] theorem State.release_notices (s : State) (m : Seg) (p : Port) : (s.release m p).notices = s.notices :=
  s.releaseBy_notices m p Engine.endService

@[simp] theorem State.beginRecovery_notices (s : State) (m : Seg) (broken : Option Port) :
    (s.beginRecovery m broken).notices = s.notices := rfl

@[simp] theorem State.resumeOrHandOver_notices (s : State) (m : Seg) : (s.resumeOrHandOver m).notices = s.notices := by
  unfold State.resumeOrHandOver
  split <;> simp

@[simp] theorem State.failSegment_notices (s : State) (m : Seg) : (s.failSegment m).notices = s.notices := by
  unfold State.failSegment
  dsimp only
  split <;> simp

@[simp] theorem State.holdExpiryUnserved_notices (s : State) (m : Seg) :
    (s.holdExpiryUnserved m).notices = s.notices := by
  unfold State.holdExpiryUnserved
  split <;> simp

@[simp] theorem State.lossInAddress_notices (s : State) (m : Seg) (p : Port) (t : Transfer) :
    (s.lossInAddress m p t).notices = s.notices := by
  unfold State.lossInAddress
  split <;> simp

@[simp] theorem State.lossUnserved_notices (s : State) (m : Seg) : (s.lossUnserved m).notices = s.notices := by
  unfold State.lossUnserved
  split <;> simp

/-! The host buses. -/

@[simp] theorem State.relayArrival_notices (s : State) (p : Port) (t : Transfer) :
    (s.relayArrival p t).notices = s.notices := by
  unfold State.relayArrival
  split <;> simp

@[simp] theorem State.classify_notices (s : State) (p : Port) (a : Addr) (d : Dir) :
    (s.classify p a d).notices = s.notices := by
  unfold State.classify State.enterCommandIn State.enterResponseOut
  repeat' split
  all_goals simp

@[simp] theorem State.sameSegment_notices (s : State) (p : Port) (t : Transfer) :
    (s.sameSegment p t).notices = s.notices := by
  unfold State.sameSegment
  split <;> simp

@[simp] theorem State.leaveSegment_notices (s : State) (m : Seg) (p : Port) (a : Addr) (d : Dir) :
    (s.leaveSegment m p a d).notices = s.notices := by
  simp [State.leaveSegment]

@[simp] theorem State.addressWhileHolding_notices (s : State) (m : Seg) (p : Port) (a : Addr) (d : Dir) :
    (s.addressWhileHolding m p a d).notices = s.notices := by
  unfold State.addressWhileHolding
  repeat' split
  all_goals simp

@[simp] theorem State.frameByte_notices (s : State) (p : Port) (b : Byte) : (s.frameByte p b).notices = s.notices := by
  unfold State.frameByte
  split <;> simp

@[simp] theorem State.endRelay_notices (s : State) (m : Seg) (p : Port) : (s.endRelay m p).notices = s.notices := by
  simp [State.endRelay]

@[simp] theorem State.expireQueued_notices (s : State) (p : Port) (t : Transfer) :
    (s.expireQueued p t).notices = s.notices := by
  simp [State.expireQueued]

@[simp] theorem State.expireAddressing_notices (s : State) (p : Port) (t : Transfer) :
    (s.expireAddressing p t).notices = s.notices := by
  unfold State.expireAddressing
  split <;> simp

@[simp] theorem State.resetContext_notices (s : State) (q : Port) : (s.resetContext q).notices = s.notices := by
  unfold State.resetContext
  dsimp only
  repeat' split
  all_goals simp

/-! The Lease Table and the Command Unit. -/

@[simp] theorem State.makeLease_notices (s : State) (i : Slot) (p : Port) (e : EntryIx) (d : Nat) (st : LeaseStatus) :
    (s.makeLease i p e d st).notices = s.notices := rfl

@[simp] theorem State.cutHeld_notices (s : State) (e : EntryIx) (ms : Nat) : (s.cutHeld e ms).notices = s.notices := by
  unfold State.cutHeld
  split <;> simp

@[simp] theorem State.badArgument_notices (s : State) (p : Port) (op : Op) : (s.badArgument p op).notices = s.notices := rfl

@[simp] theorem State.cmdInsr_notices (s : State) (p : Port) (i vb sp m tb vis wp md : Byte) (ml : Half) :
    (s.cmdInsr p i vb sp m tb vis wp md ml).notices = s.notices := by
  unfold State.cmdInsr
  dsimp only
  repeat' split
  all_goals simp

@[simp] theorem State.cmdRdrt_notices (s : State) (p : Port) (i : Byte) : (s.cmdRdrt p i).notices = s.notices := by
  unfold State.cmdRdrt
  split <;> simp

@[simp] theorem State.cmdDflt_notices (s : State) (p : Port) (q m : Byte) : (s.cmdDflt p q m).notices = s.notices := by
  unfold State.cmdDflt
  split <;> simp

@[simp] theorem State.cmdLacq_notices (s : State) (p : Port) (i : Byte) (d : Half) (w : Byte) :
    (s.cmdLacq p i d w).notices = s.notices := by
  unfold State.cmdLacq
  dsimp only
  repeat' split
  all_goals simp

@[simp] theorem State.cmdLren_notices (s : State) (p : Port) (i tok : Byte) (d : Half) :
    (s.cmdLren p i tok d).notices = s.notices := by
  unfold State.cmdLren
  repeat' split
  all_goals simp

@[simp] theorem State.cancelLease_notices (s : State) (p : Port) (e : EntryIx) :
    (s.cancelLease p e).notices = s.notices := by
  unfold State.cancelLease
  repeat' split
  all_goals simp

@[simp] theorem State.cmdLqry_notices (s : State) (p : Port) (i : Byte) : (s.cmdLqry p i).notices = s.notices := by
  unfold State.cmdLqry
  dsimp only
  repeat' split
  all_goals simp

@[simp] theorem State.cmdScfg_notices (s : State) (p : Port) (m en sh w h : Byte) :
    (s.cmdScfg p m en sh w h).notices = s.notices := by
  unfold State.cmdScfg
  split <;> simp

@[simp] theorem State.cmdSsta_notices (s : State) (p : Port) (m : Byte) : (s.cmdSsta p m).notices = s.notices := by
  unfold State.cmdSsta
  split <;> simp

@[simp] theorem State.cmdPsta_notices (s : State) (p : Port) (q : Byte) : (s.cmdPsta p q).notices = s.notices := by
  unfold State.cmdPsta
  split <;> simp

@[simp] theorem State.cmdRght_notices (s : State) (p : Port) (q r n : Byte) : (s.cmdRght p q r n).notices = s.notices := by
  unfold State.cmdRght
  repeat' split
  all_goals simp

@[simp] theorem State.cmdIdnt_notices (s : State) (p : Port) : (s.cmdIdnt p).notices = s.notices := rfl

/-! ### Rows that leave the Notice Queues alone -/

/-- Every next state of the outcome has the Notice Queues of `s`. -/
def KeepsNotices (s : State) (r : Result) : Prop := Ensures r (fun t => t.notices = s.notices)

theorem execAddressByte_notices (p : Port) (a : Addr) (d : Dir) (s : State) : KeepsNotices s (execAddressByte p a d s) := by
  unfold KeepsNotices execAddressByte
  dsimp only
  repeat' split
  all_goals simp

theorem execDataByte_notices (p : Port) (b : Byte) (s : State) : KeepsNotices s (execDataByte p b s) := by
  unfold KeepsNotices execDataByte
  dsimp only
  repeat' split
  all_goals simp

theorem execHostAcknowledge_notices (p : Port) (s : State) : KeepsNotices s (execHostAcknowledge p s) := by
  unfold KeepsNotices execHostAcknowledge
  dsimp only
  repeat' split
  all_goals simp

theorem execHostNotAcknowledge_notices (p : Port) (s : State) : KeepsNotices s (execHostNotAcknowledge p s) := by
  unfold KeepsNotices execHostNotAcknowledge
  dsimp only
  repeat' split
  all_goals simp

theorem execWaitExpiry_notices (p : Port) (s : State) : KeepsNotices s (execWaitExpiry p s) := by
  unfold KeepsNotices execWaitExpiry
  repeat' split
  all_goals simp

theorem execLineCheckPassed_notices (m : Seg) (s : State) : KeepsNotices s (execLineCheckPassed m s) := by
  unfold KeepsNotices execLineCheckPassed
  dsimp only
  repeat' split
  all_goals simp

theorem execTargetAcknowledgesAddress_notices (m : Seg) (s : State) :
    KeepsNotices s (execTargetAcknowledgesAddress m s) := by
  unfold KeepsNotices execTargetAcknowledgesAddress
  repeat' split
  all_goals simp

theorem execTargetNack_notices (m : Seg) (s : State) : KeepsNotices s (execTargetNack m s) := by
  unfold KeepsNotices execTargetNack
  repeat' split
  all_goals simp

theorem execWriteByteAnswered_notices (m : Seg) (acked : Bool) (s : State) :
    KeepsNotices s (execWriteByteAnswered m acked s) := by
  unfold KeepsNotices execWriteByteAnswered
  split
  · split <;> simp
  · simp

theorem execReadByteFetched_notices (m : Seg) (b : Byte) (s : State) : KeepsNotices s (execReadByteFetched m b s) := by
  unfold KeepsNotices execReadByteFetched
  repeat' split
  all_goals simp

theorem execClosingByteFinished_notices (m : Seg) (acked : Bool) (s : State) :
    KeepsNotices s (execClosingByteFinished m acked s) := by
  unfold KeepsNotices execClosingByteFinished
  split <;> simp

theorem execStopComplete_notices (m : Seg) (s : State) : KeepsNotices s (execStopComplete m s) := by
  unfold KeepsNotices execStopComplete
  split <;> simp

theorem execLineHeld_notices (m : Seg) (l : Line) (s : State) : KeepsNotices s (execLineHeld m l s) := by
  unfold KeepsNotices execLineHeld
  dsimp only
  repeat' split
  all_goals simp

theorem execLineReleased_notices (m : Seg) (l : Line) (s : State) : KeepsNotices s (execLineReleased m l s) := by
  unfold KeepsNotices execLineReleased
  split <;> simp

theorem execBadCommand_notices (p : Port) (code : Byte) (s : State) : KeepsNotices s (execBadCommand p code s) := by
  unfold KeepsNotices execBadCommand
  repeat' split
  all_goals simp

end Sys2Proof.Machine
end

section
/-! SUPPORT. The law of the Notice Queues (R135, R137): posts keep it, and so does every command and every row. -/

namespace Sys2Proof.Machine

section
variable {s : State}

/-! ### Changes of the Notice Queues -/

theorem NoticesLaw.of_notices {t : State} (h : NoticesLaw s) (ht : t.notices = s.notices) : NoticesLaw t := by
  unfold NoticesLaw
  rw [ht]
  exact h

/-- A row that leaves the Notice Queues alone keeps their law. -/
theorem NoticesLaw.ensures {r : Result} (h : NoticesLaw s) (hr : KeepsNotices s r) : Ensures r NoticesLaw :=
  hr.mono fun _ => h.of_notices

/-- One queue changed to a lawful one. -/
theorem NoticesLaw.onNotices (h : NoticesLaw s) {p : Port} {f : NoticeQueue → NoticeQueue} (hf : (f s.notices[p]).Lawful) :
    NoticesLaw (s.onNotices p f) := by
  intro q
  rw [State.onNotices_notices]
  by_cases hq : p = q
  · subst hq
    rw [tabUpd_self]
    exact hf
  · rw [tabUpd_other _ _ _ _ hq]
    exact h q

theorem NoticesLaw.post (h : NoticesLaw s) (p : Port) (k : NoticeKind) (e : Option EntryIx) (m : Option Seg) (tok : Byte) :
    NoticesLaw (s.post p k e m tok) :=
  h.onNotices ((h p).store k e m tok)

/-! ### Breaks and recoveries (R19, R102, R106, R107, R108) -/

theorem NoticesLaw.breakPort (h : NoticesLaw s) (m : Seg) (p : Port) (t : Transfer) (c : BreakCause) :
    NoticesLaw (s.breakPort m p t c) :=
  NoticesLaw.post (s := s.onPort p (HostPort.breakOff t)) h p _ _ _ _

/-- The outcome of a recovery is one post for each port of its audience (R108). -/
theorem NoticesLaw.postOutcome (h : NoticesLaw s) (m : Seg) (k : NoticeKind) : NoticesLaw (s.postOutcome m k) := by
  unfold State.postOutcome
  generalize s.recoveryAudience m = ps
  induction ps generalizing s with
  | nil => exact h
  | cons p ps ih => exact ih (h.post p k none (some m) 0#8)

theorem NoticesLaw.recoverySucceeds (h : NoticesLaw s) (m : Seg) : NoticesLaw (s.recoverySucceeds m) :=
  (h.of_notices (by simp)).postOutcome m .segmentRecovered

theorem NoticesLaw.recoveryFails (h : NoticesLaw s) (m : Seg) (acts : List BusAct) : NoticesLaw (s.recoveryFails m acts) :=
  (h.of_notices (by simp)).postOutcome m .segmentFault

theorem NoticesLaw.forceRecovery (h : NoticesLaw s) (m : Seg) : NoticesLaw (s.forceRecovery m) := by
  have hbreak (p : Port) (t : Transfer) : NoticesLaw ((s.breakPort m p t .recoveryForced).beginRecovery m (some p)) :=
    (h.breakPort m p t .recoveryForced).of_notices rfl
  have hbegin : NoticesLaw (s.beginRecovery m none) := h.of_notices rfl
  unfold State.forceRecovery
  split
  · split
    · exact hbreak _ _
    · exact hbreak _ _
    · exact hbegin
  · exact hbegin

theorem NoticesLaw.lose (h : NoticesLaw s) (m : Seg) : Ensures (s.lose m) NoticesLaw := by
  have hloss : NoticesLaw (s.afterLoss m) := h
  unfold State.lose
  dsimp only
  split
  · exact ensures_next.2 (hloss.of_notices (State.lossUnserved_notices _ m))
  · split
    · exact ensures_next.2 (hloss.of_notices (State.lossInAddress_notices _ m _ _))
    · split
      · exact ensures_next.2 ((hloss.breakPort m _ _ .arbitrationLost).of_notices (State.releaseBy_notices _ m _ _))
      · exact ensures_fault

/-! ### Leases (R120 to R129) -/

theorem NoticesLaw.promote (h : NoticesLaw s) (e : EntryIx) : NoticesLaw (s.promote e) := by
  cases hfirst : s.pendingAt e 1 with
  | none => rwa [State.promote_none hfirst]
  | some x =>
    rw [State.promote_some hfirst]
    exact (h.of_notices (by simp)).post _ _ _ _ _

theorem NoticesLaw.freeRecord (h : NoticesLaw s) (x : Slot × Lease) : NoticesLaw (s.freeRecord x) :=
  h.of_notices (s.freeRecord_notices x)

theorem NoticesLaw.expireLease (h : NoticesLaw s) (x : Slot × Lease) : NoticesLaw (s.expireLease x) :=
  ((h.freeRecord x).post _ _ _ _ _).promote x.2.entry

theorem NoticesLaw.revoke (h : NoticesLaw s) (x : Slot × Lease) (c : RevokeCause) (m : Option Seg) :
    NoticesLaw (s.revoke x c m) :=
  (h.freeRecord x).post _ _ _ _ _

theorem NoticesLaw.cancelPending (h : NoticesLaw s) (e : EntryIx) (c : RevokeCause) (m : Option Seg) (n : Nat) :
    NoticesLaw (State.cancelPending e c m n s) := by
  induction n generalizing s with
  | zero => exact h
  | succ n ih =>
    unfold State.cancelPending
    split
    · exact ih (h.revoke _ c m)
    · exact h

theorem NoticesLaw.clearEntry (h : NoticesLaw s) (e : EntryIx) (c d : RevokeCause) (m : Option Seg) :
    NoticesLaw (s.clearEntry e c d m) := by
  unfold State.clearEntry State.revokeHeld
  split
  · exact (h.revoke _ c m).cancelPending e d m _
  · exact h.cancelPending e d m _

theorem NoticesLaw.cancelUnseen (h : NoticesLaw s) (e : EntryIx) (vis : PortMask) (m : Option Seg) (n : Nat) :
    NoticesLaw (State.cancelUnseen e vis m n s) := by
  induction n generalizing s with
  | zero => exact h
  | succ n ih =>
    unfold State.cancelUnseen
    split
    · exact ih (h.revoke _ .visibilityLost m)
    · exact h

theorem NoticesLaw.loseVisibility (h : NoticesLaw s) (e : EntryIx) (vis : PortMask) (m : Option Seg) :
    NoticesLaw (s.loseVisibility e vis m) := by
  unfold State.loseVisibility
  split
  · split
    · exact h.cancelUnseen e vis m _
    · exact ((h.revoke _ .visibilityLost m).cancelUnseen e vis m _).promote e
  · exact h.cancelUnseen e vis m _

theorem NoticesLaw.freeOwn (h : NoticesLaw s) (q : Port) (e : EntryIx) : NoticesLaw (s.freeOwn q e) := by
  unfold State.freeOwn
  split
  · split
    · exact (h.freeRecord _).promote _
    · exact h.freeRecord _
  · exact h

theorem NoticesLaw.freeAllOwn (h : NoticesLaw s) (q : Port) : NoticesLaw (s.freeAllOwn q) := by
  unfold State.freeAllOwn
  generalize allEntries = es
  induction es generalizing s with
  | nil => exact h
  | cons e es ih => exact ih (h.freeOwn q e)

/-! ### Commands -/

theorem NoticesLaw.respond (h : NoticesLaw s) {p : Port} {st : Status} {echo : Byte} {payload : List Byte} :
    NoticesLaw (s.respond p st echo payload) := h

theorem NoticesLaw.cmdDelr (h : NoticesLaw s) (p : Port) (index : Byte) : NoticesLaw (s.cmdDelr p index) := by
  unfold State.cmdDelr
  split
  · exact h.respond
  · split
    · exact h.respond
    · exact (NoticesLaw.clearEntry (h.of_notices (State.onEntry_notices ..)) _ _ _ _).respond

theorem NoticesLaw.cmdModr (h : NoticesLaw s) (p : Port) (index visMask wpMask mode : Byte) (maxLease : Half) :
    NoticesLaw (s.cmdModr p index visMask wpMask mode maxLease) := by
  unfold State.cmdModr
  split
  · exact h.respond
  · split
    · exact h.respond
    · split
      · exact h.respond
      · have hentry (e : EntryIx) (f : Entry → Entry) : NoticesLaw (s.onEntry e f) := h
        exact (((hentry _ _).loseVisibility _ _ _).of_notices (State.cutHeld_notices ..)).respond

theorem NoticesLaw.releaseLease (h : NoticesLaw s) (p : Port) (e : EntryIx) (token : Byte) :
    NoticesLaw (s.releaseLease p e token) := by
  unfold State.releaseLease
  split
  · exact h.respond
  · split
    · exact ((h.freeRecord _).promote _).respond
    · exact h.respond

theorem NoticesLaw.cmdLrel (h : NoticesLaw s) (p : Port) (index token : Byte) : NoticesLaw (s.cmdLrel p index token) := by
  unfold State.cmdLrel
  split
  · exact h.respond
  · split
    · exact h.of_notices (s.cancelLease_notices p _)
    · exact h.releaseLease p _ token

theorem NoticesLaw.cmdLrev (h : NoticesLaw s) (p : Port) (index : Byte) : NoticesLaw (s.cmdLrev p index) := by
  unfold State.cmdLrev
  split
  · exact h.respond
  · split
    · exact h.respond
    · split
      · exact h.respond
      · exact (h.clearEntry _ _ _ _).respond

theorem NoticesLaw.cmdSrcv (h : NoticesLaw s) (p : Port) (segment : Byte) : NoticesLaw (s.cmdSrcv p segment) := by
  unfold State.cmdSrcv
  split
  · exact h.respond
  · split
    · exact h.respond
    · exact h.respond
    · exact (h.forceRecovery _).respond

theorem NoticesLaw.cmdNfet (h : NoticesLaw s) (p : Port) : NoticesLaw (s.cmdNfet p) :=
  (h.onNotices (h p).fetch).respond

theorem NoticesLaw.portReset (h : NoticesLaw s) (p q : Port) : NoticesLaw (s.portReset p q) := by
  have hfirst : NoticesLaw (if q = p then s.onPort q HostPort.clearRefusal else s.resetContext q) := by
    split
    · exact h.of_notices rfl
    · exact h.of_notices (s.resetContext_notices q)
  have hstored := (hfirst.freeAllOwn q).onNotices (p := q) (f := NoticeQueue.portReset p) (NoticeQueue.lawful_portReset p _)
  exact hstored.of_notices (State.onResponse_notices ..)

theorem NoticesLaw.cmdPrst (h : NoticesLaw s) (p : Port) (port : Byte) : NoticesLaw (s.cmdPrst p port) := by
  unfold State.cmdPrst
  split
  · exact h.respond
  · exact (h.portReset p _).respond

/-- Every command keeps the law. -/
theorem NoticesLaw.perform (h : NoticesLaw s) (p : Port) (c : Command) : NoticesLaw (s.perform p c) := by
  cases c with
  | delr index => exact h.cmdDelr p index
  | modr index vis wp mode maxLease => exact h.cmdModr p index vis wp mode maxLease
  | lrel index token => exact h.cmdLrel p index token
  | lrev index => exact h.cmdLrev p index
  | srcv segment => exact h.cmdSrcv p segment
  | nfet => exact h.cmdNfet p
  | prst port => exact h.cmdPrst p port
  | insr => exact h.of_notices (State.cmdInsr_notices ..)
  | rdrt => exact h.of_notices (State.cmdRdrt_notices ..)
  | dflt => exact h.of_notices (State.cmdDflt_notices ..)
  | lacq => exact h.of_notices (State.cmdLacq_notices ..)
  | lren => exact h.of_notices (State.cmdLren_notices ..)
  | lqry => exact h.of_notices (State.cmdLqry_notices ..)
  | scfg => exact h.of_notices (State.cmdScfg_notices ..)
  | ssta => exact h.of_notices (State.cmdSsta_notices ..)
  | psta => exact h.of_notices (State.cmdPsta_notices ..)
  | rght => exact h.of_notices (State.cmdRght_notices ..)
  | idnt => exact h.of_notices (State.cmdIdnt_notices ..)

theorem NoticesLaw.runCommand (h : NoticesLaw s) (p : Port) (c : Command) : NoticesLaw (s.runCommand p c) := by
  unfold State.runCommand
  split
  · exact h.perform p c
  · exact h.respond

theorem NoticesLaw.takeFrame (h : NoticesLaw s) (p : Port) : NoticesLaw (s.takeFrame p) := by
  have hemptied : NoticesLaw (s.onBuffer p (fun _ => FrameBuffer.reset)) := h
  unfold State.takeFrame
  dsimp only
  split
  · exact hemptied
  · split
    · exact hemptied.respond
    · split
      · exact hemptied.respond
      · split
        · exact hemptied.respond
        · exact hemptied.runCommand p _

theorem NoticesLaw.commandRow (h : NoticesLaw s) (p : Port) (c : Command) : Ensures (s.commandRow p c) NoticesLaw := by
  unfold State.commandRow
  split
  · exact ensures_next.2 (h.runCommand p c)
  · exact ensures_refused

/-! ### Rows that can post -/

/-- A start condition takes the frame of COMMAND_IN, and otherwise changes its port alone. -/
theorem NoticesLaw.startCondition (h : NoticesLaw s) (p : Port) : Ensures (s.startCondition p) NoticesLaw := by
  have hport (f : HostPort → HostPort) : NoticesLaw (s.onPort p f) := h
  unfold State.startCondition
  dsimp only
  repeat' split
  all_goals simp [hport, NoticesLaw.takeFrame]

/-- A stop takes the frame of COMMAND_IN, ends a relay, or changes its port alone. -/
theorem NoticesLaw.stop (h : NoticesLaw s) (p : Port) : Ensures (execStop p s) NoticesLaw := by
  have hport : NoticesLaw (s.onPort p (HostPort.toIdle false)) := h
  have hrelay (m : Seg) : NoticesLaw (s.endRelay m p) := h.of_notices (s.endRelay_notices m p)
  unfold execStop
  dsimp only
  repeat' split
  all_goals simp [hport, hrelay, NoticesLaw.takeFrame]

theorem NoticesLaw.abandonExpiry (h : NoticesLaw s) (p : Port) : Ensures (execAbandonExpiry p s) NoticesLaw := by
  have hpost {t : State} (ht : t.notices = s.notices) (x : Option Transfer) : NoticesLaw (t.postAbandoned p x) :=
    (h.of_notices ht).post p _ _ _ _
  unfold execAbandonExpiry
  split
  · exact ensures_refused
  · split
    · exact ensures_next.2 (hpost (s.endRelay_notices _ p) _)
    · exact ensures_next.2 (hpost (s.endRelay_notices _ p) _)
    · exact ensures_next.2 (hpost rfl _)
    · exact ensures_next.2 (hpost rfl _)
    · exact ensures_next.2 (hpost rfl _)
    all_goals exact ensures_fault

theorem NoticesLaw.leaseExpiry (h : NoticesLaw s) (e : EntryIx) : Ensures (execLeaseExpiry e s) NoticesLaw := by
  unfold execLeaseExpiry
  split
  · exact ensures_next.2 (h.expireLease _)
  · exact ensures_refused

/-- A hold expiry breaks a relayed transfer, fails a recovery, or posts nothing (R92, R95, R102, R107). -/
theorem NoticesLaw.holdTimerExpiry (h : NoticesLaw s) (m : Seg) : Ensures (execHoldTimerExpiry m s) NoticesLaw := by
  have hbreak (p : Port) (t : Transfer) : NoticesLaw ((s.breakPort m p t .holdExpired).beginRecovery m (some p)) :=
    (h.breakPort m p t .holdExpired).of_notices rfl
  have hbegin : NoticesLaw (s.beginRecovery m none) := h.of_notices rfl
  have hunserved : NoticesLaw (s.holdExpiryUnserved m) := h.of_notices (s.holdExpiryUnserved_notices m)
  unfold execHoldTimerExpiry
  dsimp only
  repeat' split
  all_goals simp [hbreak, hbegin, hunserved, h.recoveryFails]

theorem NoticesLaw.recoveryPulse (h : NoticesLaw s) (m : Seg) (dataHigh : Bool) :
    Ensures (execRecoveryPulse m dataHigh s) NoticesLaw := by
  have hpulsed : NoticesLaw (s.onEngine m (Engine.pulsed dataHigh)) := h
  unfold execRecoveryPulse
  dsimp only
  split
  · split
    · exact ensures_next.2 (hpulsed.recoveryFails m _)
    · exact ensures_next.2 hpulsed
  · exact ensures_refused

theorem NoticesLaw.recoverySucceeded (h : NoticesLaw s) (m : Seg) : Ensures (execRecoverySucceeded m s) NoticesLaw := by
  unfold execRecoverySucceeded
  split
  · exact ensures_next.2 (h.recoverySucceeds m)
  · exact ensures_refused

theorem NoticesLaw.arbitrationLoss (h : NoticesLaw s) (m : Seg) : Ensures (execArbitrationLoss m s) NoticesLaw := by
  unfold execArbitrationLoss
  split
  · exact h.lose m
  · exact ensures_refused

theorem NoticesLaw.foreignStart (h : NoticesLaw s) (m : Seg) : Ensures (execForeignStart m s) NoticesLaw := by
  unfold execForeignStart
  dsimp only
  split
  · exact h.lose m
  · split
    · exact ensures_next.2 h
    · exact ensures_next.2 (h.of_notices rfl)

/-- A foreign stop is a loss, or changes the engine alone. -/
theorem NoticesLaw.foreignStop (h : NoticesLaw s) (m : Seg) (linesHigh : Bool) :
    Ensures (execForeignStop m linesHigh s) NoticesLaw := by
  unfold execForeignStop
  dsimp only
  split
  · exact h.lose m
  · refine h.ensures ?_
    unfold KeepsNotices
    repeat' split
    all_goals simp

theorem NoticesLaw.deviceReset (s : State) (adr admSel : BitVec 2) : Ensures (execDeviceReset adr admSel s) NoticesLaw := by
  refine ensures_next.2 fun p => ?_
  have hqueue : (State.resetWith adr admSel).notices[p] = NoticeQueue.reset := by simp [State.resetWith]
  exact hqueue ▸ NoticeQueue.lawful_empty 0#8

/-! ### Every row -/

/-- Every row of the table keeps the law of the Notice Queues: a command is one of `commandRow`. -/
theorem NoticesLaw.exec (h : NoticesLaw s) (i : Instr) : Ensures (exec i s) NoticesLaw := by
  cases i with
  | deviceReset adr admSel => exact NoticesLaw.deviceReset s adr admSel
  | start p => exact h.startCondition p
  | repeatedStart p => exact h.startCondition p
  | stop p => exact h.stop p
  | abandonExpiry p => exact h.abandonExpiry p
  | leaseExpiry e => exact h.leaseExpiry e
  | holdTimerExpiry m => exact h.holdTimerExpiry m
  | recoveryPulse m dataHigh => exact h.recoveryPulse m dataHigh
  | recoverySucceeded m => exact h.recoverySucceeded m
  | arbitrationLoss m => exact h.arbitrationLoss m
  | foreignStart m => exact h.foreignStart m
  | foreignStop m linesHigh => exact h.foreignStop m linesHigh
  | addressByte p a d => exact h.ensures (execAddressByte_notices p a d s)
  | dataByte p b => exact h.ensures (execDataByte_notices p b s)
  | hostAcknowledge p => exact h.ensures (execHostAcknowledge_notices p s)
  | hostNotAcknowledge p => exact h.ensures (execHostNotAcknowledge_notices p s)
  | waitExpiry p => exact h.ensures (execWaitExpiry_notices p s)
  | lineCheckPassed m => exact h.ensures (execLineCheckPassed_notices m s)
  | targetAcknowledgesAddress m => exact h.ensures (execTargetAcknowledgesAddress_notices m s)
  | targetNack m => exact h.ensures (execTargetNack_notices m s)
  | writeByteAnswered m acked => exact h.ensures (execWriteByteAnswered_notices m acked s)
  | readByteFetched m b => exact h.ensures (execReadByteFetched_notices m b s)
  | closingByteFinished m acked => exact h.ensures (execClosingByteFinished_notices m acked s)
  | stopComplete m => exact h.ensures (execStopComplete_notices m s)
  | lineHeld m l => exact h.ensures (execLineHeld_notices m l s)
  | lineReleased m l => exact h.ensures (execLineReleased_notices m l s)
  | badCommand p code => exact h.ensures (execBadCommand_notices p code s)
  | _ => exact h.commandRow _ _

end

/-- Settles O3: the waiting commands and the passage of time do not touch the queues, and every row keeps their law. -/
theorem noticesLawKept : Obligations.NoticesLawKept :=
  keptByStep_of_exec (fun _ _ h => h) (fun _ h => h) fun i _ h => NoticesLaw.exec h i

end Sys2Proof.Machine
end

section
/-! SUPPORT. The rights step (R144 step 3, R149): a command that passes it ends in a response of another status than DENIED. -/

namespace Sys2Proof.Machine

/-! ### How a permitted command ends (R144, R146) -/

/-- The last change that led to `t` is a response on port `p` that echoes the code of `op`, its status not DENIED. -/
def Answers (p : Port) (op : Op) (t : State) : Prop :=
  ∃ (u : State) (st : Status) (payload : List Byte), st ≠ .denied ∧ t = u.respond p st (opCode op) payload

theorem answers_respond {u : State} {p : Port} {op : Op} {st : Status} {payload : List Byte} (h : st ≠ .denied) :
    Answers p op (u.respond p st (opCode op) payload) :=
  ⟨u, st, payload, h, rfl⟩

/-- The caller reads the response. -/
theorem Answers.status_ne_denied {p : Port} {op : Op} {t : State} (h : Answers p op t) :
    t.responses[p].status ≠ .denied := by
  obtain ⟨u, st, payload, hst, rfl⟩ := h
  simpa using hst

/-- The arguments step's refusal. -/
theorem answers_badArgument (s : State) (p : Port) (op : Op) : Answers p op (s.badArgument p op) :=
  answers_respond (by decide)

/-- SCFG is answered OK, or ACCEPTED where a disable is left pending (R70). -/
theorem State.cmdScfg_answers (s : State) (p : Port) (segment enable shared waitLimit holdLimit : Byte) :
    Answers p .scfg (s.cmdScfg p segment enable shared waitLimit holdLimit) := by
  unfold State.cmdScfg
  split
  · exact answers_badArgument s p .scfg
  · refine answers_respond ?_
    split <;> decide

/-- LREL is two commands by its token (R120, R121). -/
theorem State.cmdLrel_answers (s : State) (p : Port) (index token : Byte) : Answers p .lrel (s.cmdLrel p index token) := by
  unfold State.cmdLrel State.cancelLease State.releaseLease
  split
  · exact answers_badArgument s p .lrel
  · repeat' split
    all_goals exact answers_respond (by decide)

/-- Every command that passes the rights step is answered on the caller's port, and not with DENIED: each branch of its
meaning ends in a response of its own. -/
theorem State.perform_answers (s : State) (p : Port) (c : Command) : Answers p c.op (s.perform p c) := by
  cases c with
  | lrel index token => exact s.cmdLrel_answers p index token
  | scfg segment enable shared waitLimit holdLimit =>
    exact s.cmdScfg_answers p segment enable shared waitLimit holdLimit
  | _ =>
    dsimp only [State.perform, Command.op, State.cmdInsr, State.cmdDelr, State.cmdModr, State.cmdRdrt, State.cmdDflt,
      State.cmdLacq, State.cmdLren, State.cmdLrev, State.cmdLqry, State.cmdSsta, State.cmdSrcv, State.cmdNfet,
      State.cmdPsta, State.cmdRght, State.cmdPrst, State.cmdIdnt]
    repeat' split
    all_goals exact answers_respond (by decide)

end Sys2Proof.Machine
end

section
/-! SUPPORT. The rights step decides (R149), and the commands PSTA (R155), RGHT (R150) and IDNT (R156). -/

namespace Sys2Proof.Machine

/-! ### The rights step (R149) -/

/-- PRST of a port above 3 is refused by its arguments step (R152). -/
theorem State.cmdPrst_badArgument {b : Byte} (hb : 3 < b.toNat) (s : State) (p : Port) :
    s.cmdPrst p b = s.respond p .badArgument 0x52#8 [] := by
  simp only [State.cmdPrst, decodePort_none.2 hb]
  rfl

/-- Settles O16: a command that fails the step is answered DENIED there, and one that passes it ends in an answer of another
status. -/
theorem rightsStepDecides : Obligations.RightsStepDecides := by
  unfold Obligations.RightsStepDecides
  intro c p s hidle
  by_cases hperm : Permitted s.rights[p].rights p c
  · have hanswer : (s.perform p c).responses[p].status ≠ .denied := (s.perform_answers p c).status_ne_denied
    refine ⟨s.perform p c, exec_row_permitted ⟨hidle, hperm⟩, iff_of_false hanswer (not_not_intro hperm),
      fun hdenied => absurd hperm hdenied, ?_⟩
    rintro b rfl hb -
    exact s.cmdPrst_badArgument hb p
  · refine ⟨_, exec_row_denied hidle hperm, iff_of_true (by simp) hperm, fun _ => rfl, ?_⟩
    rintro b rfl - hadmin
    exact absurd (Or.inr hadmin) hperm

/-! ### PSTA (R155) -/

/-- PSTA needs no right. -/
theorem exec_psta {p : Port} {s : State} (hidle : s.ports[p].ctx = .idle) (b : Byte) :
    exec (.psta p b) s = .next (s.cmdPsta p b) :=
  exec_row_permitted (c := .psta b) ⟨hidle, trivial⟩

/-- The bits of a set of rights (R158). -/
theorem Rights.byte_bits (r : Rights) :
    r.byte.getLsbD 0 = r.route ∧ r.byte.getLsbD 1 = r.lease ∧ r.byte.getLsbD 2 = r.segment ∧ r.byte.getLsbD 3 = r.admin ∧
      r.byte.toNat < 16 := by
  obtain ⟨a, b, c, d⟩ := r
  revert a b c d
  decide

/-- The four bytes of a last-refusal record, cleared or not (R20, R161). -/
theorem HostPort.refusalBytes_read (h : HostPort) :
    ∃ reason addr dir entry : Byte, h.refusalBytes = [reason, addr, dir, entry] ∧
      (h.lastRefusal = none → reason = 0x00#8 ∧ addr = 0xFF#8 ∧ dir = 0xFF#8 ∧ entry = 0xFF#8) ∧
      (∀ x, h.lastRefusal = some x → reason = x.reason.code ∧ addr = x.vaddr.setWidth 8 ∧
        (x.dir = .write → dir = 0x00#8) ∧ (x.dir = .read → dir = 0x01#8) ∧ entry = entryOrAbsent x.entry) := by
  unfold HostPort.refusalBytes
  cases h.lastRefusal with
  | none => exact ⟨_, _, _, _, rfl, fun _ => ⟨rfl, rfl, rfl, rfl⟩, nofun⟩
  | some r =>
    refine ⟨_, _, _, _, rfl, nofun, ?_⟩
    rintro x ⟨⟩
    exact ⟨rfl, addrByte_eq r.vaddr, fun hw => by rw [hw]; rfl, fun hr => by rw [hr]; rfl, rfl⟩

/-- Settles O36: each byte of the payload is read from the port's context, its row, its queue and its refusal record. -/
theorem pstaReportsPort : Obligations.PstaReportsPort := by
  unfold Obligations.PstaReportsPort
  intro p s hidle
  constructor
  · intro q
    obtain ⟨reason, addr, dir, entry, hbytes, hcleared, hkept⟩ := s.ports[q].refusalBytes_read
    obtain ⟨hroute, hlease, hsegment, hadmin, hlt⟩ := s.rights[q].rights.byte_bits
    refine ⟨s.ports[q].ctx.code, segOrAbsent (s.ports[q].ctx.transfer?.map (fun t => t.snap.seg)), s.rights[q].rights.byte,
      reason, addr, dir, entry, ?_, ?_, hroute, hlease, hsegment, hadmin, hlt, hcleared, hkept⟩
    · rw [exec_psta hidle]
      simp only [State.cmdPsta, decodePort_portByte, State.portStatus, hbytes]
      rfl
    · cases s.ports[q].ctx <;> exact ⟨rfl, rfl⟩
  · intro b hb
    rw [exec_psta hidle]
    simp only [State.cmdPsta, decodePort_none.2 hb]
    rfl

/-! ### RGHT (R150) -/

theorem exec_rght {p : Port} {s : State} (hidle : s.ports[p].ctx = .idle) (hadmin : s.rights[p].rights.admin = true)
    (port rights quota : Byte) : exec (.rght p port rights quota) s = .next (s.cmdRght p port rights quota) :=
  exec_row_permitted (c := .rght port rights quota) ⟨hidle, hadmin⟩

/-- The arguments step of RGHT refuses a port above 3, a right outside the four and a quota above 16. -/
theorem decodeRght_none {port rights quota : Byte} (h : 3 < port.toNat ∨ 15 < rights.toNat ∨ 16 < quota.toNat) :
    decodeRght port rights quota = none := by
  rcases h with h | h | h
  · simp [decodeRght, decodePort_none.2 h]
  · simp [decodeRght, decodeRights_none.2 h]
  · simp [decodeRght, Nat.not_le.2 h]

theorem decodeRght_bytes (q : Port) (r : Rights) {n : Nat} (hn : n ≤ 16) :
    decodeRght (portByte q) r.byte (BitVec.ofNat 8 n) = some (q, { rights := r, quota := n }) := by
  have hbyte : n % 256 = n := Nat.mod_eq_of_lt (by omega)
  simp [decodeRght, hbyte, hn]

theorem State.adminElsewhere_false {s : State} {q : Port} :
    s.adminElsewhere q = false ↔ ∀ k : Port, k ≠ q → s.rights[k].rights.admin = false := by
  simp [State.adminElsewhere, allPorts]

/-- Settles O37: the test of LAST_ADMIN is the statement's, and the row is set as one change of the table. -/
theorem rghtSetsRow : Obligations.RghtSetsRow := by
  unfold Obligations.RghtSetsRow
  constructor
  · intro p a b c s hidle
    refine ⟨fun hadmin => ?_, fun hadmin hbad => ?_⟩
    · exact exec_row_denied (c := .rght a b c) hidle (Bool.eq_false_iff.1 hadmin)
    · rw [exec_rght hidle hadmin]
      simp only [State.cmdRght, decodeRght_none hbad]
      rfl
  · intro p q r n s hidle hadmin hn run last
    have hlast : (!r.admin && !s.adminElsewhere q) = true ↔ last := by
      simp [last, State.adminElsewhere_false]
    have hrun : run = .next (s.cmdRght p (portByte q) r.byte (BitVec.ofNat 8 n)) := exec_rght hidle hadmin _ _ _
    simp only [State.cmdRght, decodeRght_bytes q r hn] at hrun
    refine ⟨fun h => ?_, fun h => ?_⟩
    · rw [hrun, if_pos (hlast.2 h)]
      rfl
    · rw [hrun, if_neg (fun hm => h (hlast.1 hm))]
      rfl

/-! ### IDNT (R156) -/

/-- The own address byte: the base and the straps do not carry out of seven bits. -/
theorem addrByte_ownAddr (s : State) : addrByte s.ownAddr = 0x2C#8 + s.adr.setWidth 8 := by
  unfold State.ownAddr
  generalize s.adr = straps
  revert straps
  decide

/-- Settles O39. -/
theorem idntIdentifiesPart : Obligations.IdntIdentifiesPart := by
  unfold Obligations.IdntIdentifiesPart
  intro p s hidle
  refine (exec_row_permitted (c := .idnt) ⟨hidle, trivial⟩).trans ?_
  simp only [State.perform, State.cmdIdnt, addrByte_ownAddr, BitVec.ofNat_toNat]
  rfl

end Sys2Proof.Machine
end

section
/-! SUPPORT. What an event does to the Host Port Units and their frame buffers, as steps of one port and its buffer (spec 01),
with the Lease Table, the responses and the settings left alone: an inversion of every row, from which the laws of ports,
buffers, responses and leases follow. -/

namespace Sys2Proof.Machine

open Relation (ReflTransGen)

/-! ### One port and its frame buffer -/

/-- One change of a host port and its frame buffer, with what the part relies on when it makes it. -/
inductive PortMove : HostPort × FrameBuffer → HostPort × FrameBuffer → Prop
  | rest {h b} (exp : Bool) (hc : h.ctx ≠ .commandIn) : PortMove (h, b) (h.toIdle exp, b)
  | endFrame {h b} (exp : Bool) : PortMove (h, b) (h.toIdle exp, FrameBuffer.reset)
  | record {h b} (r : Reason) (t : Transfer) : PortMove (h, b) (h.record r t, b)
  | clearRefusal {h b} : PortMove (h, b) (h.clearRefusal, b)
  | upstream {h b} (acts : List UpAct) : PortMove (h, b) ({ h with upstream := acts }, b)
  | enter {h b c} (hheld : c.holdsClock = true) (hc : h.ctx ≠ .commandIn) : PortMove (h, b) (h.enter c, b)
  | beginFrame {h b} (acts : List UpAct) :
    PortMove (h, b) ({ h.toIdle false with ctx := .commandIn }.await acts, FrameBuffer.reset)
  | beginResponse {h b} (acts : List UpAct) (hc : h.ctx ≠ .commandIn) :
    PortMove (h, b) ({ h.toIdle false with ctx := .responseOut 0 false }.await acts, b)
  | respond {h b pos closed} (pos' : Nat) (closed' : Bool) (acts : List UpAct) (hc : h.ctx = .responseOut pos closed)
    (hclock : h.clockHeld = false) : PortMove (h, b) ({ h with ctx := .responseOut pos' closed' }.await acts, b)
  | await {h b} (acts : List UpAct) (hclock : h.clockHeld = false) (ht : h.ctx.timed = true) :
    PortMove (h, b) (h.await acts, b)
  | hold {h b} (hr : h.ctx.isRelay = true) (he : h.addrExpected = false) : PortMove (h, b) (h.hold, b)
  | answer {h b} (acts : List UpAct) (hr : h.ctx.isRelay = true) : PortMove (h, b) (h.answer acts, b)
  | addressAcknowledged {h b u} (t : Transfer) (hc : h.ctx = .addressing u) :
    PortMove (h, b) (h.addressAcknowledged t, b)
  | breakOff {h b} (t : Transfer) (hr : h.ctx.isRelay = true) : PortMove (h, b) (h.breakOff t, b)
  | expectAddress {h b} (hclock : h.clockHeld = false) (hr : h.ctx.isRelay = true) :
    PortMove (h, b) ({ h with addrExpected := true }.await [], b)
  | closeRead {h b} (hclock : h.clockHeld = false) (hr : h.ctx.isRelay = true) :
    PortMove (h, b) ({ h with readClosed := true }.await [], b)
  | store {h b} (x : Byte) (acts : List UpAct) (hclock : h.clockHeld = false) (hc : h.ctx = .commandIn)
    (hroom : b.bytes.length < 24) : PortMove (h, b) (h.await acts, { b with bytes := b.bytes ++ [x] })
  | overrun {h b} (acts : List UpAct) (hclock : h.clockHeld = false) (hc : h.ctx = .commandIn)
    (hfull : 24 ≤ b.bytes.length) : PortMove (h, b) (h.await acts, { b with overlong := true })

/-- A port of the part with its frame buffer goes from `x` to `y` by such changes. -/
abbrev PortMoves : HostPort × FrameBuffer → HostPort × FrameBuffer → Prop := ReflTransGen PortMove

/-- Every change keeps R12 and R18. -/
theorem PortMove.lawful {x y : HostPort × FrameBuffer} (h : PortMove x y) (hl : x.1.Lawful) : y.1.Lawful := by
  cases h with
  | rest exp => exact hl.toIdle exp
  | endFrame exp => exact hl.toIdle exp
  | record r t => exact hl.record r t
  | clearRefusal => exact hl.clearRefusal
  | upstream acts => exact hl.upstream acts
  | enter hheld => exact hl.enter hheld
  | beginFrame acts => exact hl.converse rfl rfl acts
  | beginResponse acts => exact hl.converse rfl rfl acts
  | respond pos' closed' acts hc hclock => exact hl.respond hc hclock pos' closed' acts
  | await acts hclock ht => exact hl.await hclock ht acts
  | hold hr he => exact hl.hold hr he
  | answer acts hr => exact hl.answer hr acts
  | addressAcknowledged t hc => exact hl.addressAcknowledged hc
  | breakOff t hr => exact hl.breakOff hr t
  | expectAddress hclock hr => exact hl.expectAddress hclock hr
  | @closeRead h b hclock hr =>
    have hclosed : ({ h with readClosed := true } : HostPort).Lawful := hl
    exact hclosed.await hclock (Ctx.relay_traits hr).1 []
  | store x acts hclock hc => exact hl.await hclock (by rw [hc]; rfl) acts
  | overrun acts hclock hc => exact hl.await hclock (by rw [hc]; rfl) acts

theorem PortMoves.lawful {x y : HostPort × FrameBuffer} (h : PortMoves x y) (hl : x.1.Lawful) : y.1.Lawful := by
  induction h with
  | refl => exact hl
  | tail _ hmove ih => exact hmove.lawful ih

/-- R142 for one port and its frame buffer. -/
def BufferFits (x : HostPort × FrameBuffer) : Prop :=
  x.2.bytes.length ≤ 24 ∧ (x.2.overlong = true → x.2.bytes.length = 24) ∧ (x.1.ctx ≠ .commandIn → x.2 = FrameBuffer.reset)

theorem bufferFits_empty (h : HostPort) : BufferFits (h, FrameBuffer.reset) :=
  ⟨by simp [FrameBuffer.reset], by simp [FrameBuffer.reset], fun _ => rfl⟩

/-- A change that leaves the buffer of a port outside COMMAND_IN alone. -/
theorem BufferFits.elsewhere {h h' : HostPort} {b : FrameBuffer} (hf : BufferFits (h, b)) (hc : h.ctx ≠ .commandIn) :
    BufferFits (h', b) := by
  obtain ⟨-, -, hempty⟩ := hf
  rw [show b = FrameBuffer.reset from hempty hc]
  exact bufferFits_empty h'

theorem Ctx.ne_commandIn_of_relay {c : Ctx} (h : c.isRelay = true) : c ≠ .commandIn := by rintro rfl; cases h

/-- Every change keeps R142. -/
theorem PortMove.bufferFits {x y : HostPort × FrameBuffer} (h : PortMove x y) (hf : BufferFits x) : BufferFits y := by
  cases h with
  | rest _ hc => exact hf.elsewhere hc
  | enter _ hc => exact hf.elsewhere hc
  | beginResponse _ hc => exact hf.elsewhere hc
  | respond _ _ _ hc => exact hf.elsewhere (by simp [hc])
  | addressAcknowledged _ hc => exact hf.elsewhere (by simp [hc])
  | hold hr => exact hf.elsewhere (Ctx.ne_commandIn_of_relay hr)
  | answer _ hr => exact hf.elsewhere (Ctx.ne_commandIn_of_relay hr)
  | breakOff _ hr => exact hf.elsewhere (Ctx.ne_commandIn_of_relay hr)
  | endFrame => exact bufferFits_empty _
  | beginFrame => exact bufferFits_empty _
  | record => exact hf
  | clearRefusal => exact hf
  | upstream => exact hf
  | await => exact hf
  | expectAddress => exact hf
  | closeRead => exact hf
  | store x acts hclock hc hroom =>
    obtain ⟨-, hlong, -⟩ := hf
    refine ⟨by rw [List.length_append]; exact hroom, fun ho => ?_, fun hne => absurd hc hne⟩
    exact absurd (hlong ho) hroom.ne
  | overrun acts hclock hc hfull =>
    obtain ⟨hle, -, -⟩ := hf
    exact ⟨hle, fun _ => le_antisymm hle hfull, fun hne => absurd hc hne⟩

theorem PortMoves.bufferFits {x y : HostPort × FrameBuffer} (h : PortMoves x y) (hf : BufferFits x) : BufferFits y := by
  induction h with
  | refl => exact hf
  | tail _ hmove ih => exact hmove.bufferFits ih

/-! ### Every port of the part -/

/-- Port `p` with its frame buffer. -/
def State.portAndBuffer (s : State) (p : Port) : HostPort × FrameBuffer := (s.ports[p], s.buffers[p])

/-- What no event of a bus, an engine or a bus timer changes: the settings, the Lease Table, the responses. -/
def State.records (s : State) :
    (Vector Entry 48 × Vector (Option Seg) 4 × Vector RightsRow 4 × BitVec 2 × BitVec 2 × List Instr) ×
      Vector (Option Lease) 16 × Byte × Vector Response 4 :=
  (s.settings, s.leases, s.tokenCounter, s.responses)

/-- An event of a bus, an engine or a bus timer: the records stay, and every port and its frame buffer goes by such changes. -/
structure BusEffect (s t : State) : Prop where
  records : t.records = s.records
  moves : ∀ p, PortMoves (s.portAndBuffer p) (t.portAndBuffer p)

theorem BusEffect.refl (s : State) : BusEffect s s := ⟨rfl, fun _ => .refl⟩

theorem BusEffect.trans {s t u : State} (h : BusEffect s t) (h' : BusEffect t u) : BusEffect s u :=
  ⟨h'.records.trans h.records, fun p => (h.moves p).trans (h'.moves p)⟩

/-- A change of arbiters, engines and notices alone. -/
theorem BusEffect.of_same {s t : State} (hr : t.records = s.records) (hp : t.ports = s.ports) (hb : t.buffers = s.buffers) :
    BusEffect s t :=
  ⟨hr, fun p => by unfold State.portAndBuffer; rw [hp, hb]⟩

theorem BusEffect.onSeg (s : State) (m : Seg) (f : Arbiter → Arbiter) : BusEffect s (s.onSeg m f) := .of_same rfl rfl rfl
theorem BusEffect.onEngine (s : State) (m : Seg) (f : Engine → Engine) : BusEffect s (s.onEngine m f) :=
  .of_same rfl rfl rfl
theorem BusEffect.post (s : State) (p : Port) (k : NoticeKind) (e : Option EntryIx) (m : Option Seg) (tok : Byte) :
    BusEffect s (s.post p k e m tok) := .of_same rfl rfl rfl

/-- One port and its buffer changed. -/
theorem BusEffect.onPortBuffer {s : State} {p : Port} {f : HostPort → HostPort} {g : FrameBuffer → FrameBuffer}
    (h : PortMoves (s.ports[p], s.buffers[p]) (f s.ports[p], g s.buffers[p])) :
    BusEffect s ((s.onPort p f).onBuffer p g) := by
  refine ⟨rfl, fun q => ?_⟩
  unfold State.portAndBuffer
  rw [State.onBuffer_ports, State.onBuffer_buffers, State.onPort_ports, State.onPort_buffers]
  by_cases hq : p = q
  · subst hq
    rw [tabUpd_self, tabUpd_self]
    exact h
  · rw [tabUpd_other _ _ _ _ hq, tabUpd_other _ _ _ _ hq]

/-- One port changed, its buffer left. -/
theorem BusEffect.onPort {s : State} {p : Port} {f : HostPort → HostPort}
    (h : PortMoves (s.ports[p], s.buffers[p]) (f s.ports[p], s.buffers[p])) : BusEffect s (s.onPort p f) := by
  refine ⟨rfl, fun q => ?_⟩
  unfold State.portAndBuffer
  rw [State.onPort_ports, State.onPort_buffers]
  by_cases hq : p = q
  · subst hq
    rw [tabUpd_self]
    exact h
  · rw [tabUpd_other _ _ _ _ hq]

/-! ### The operations of the arbiters -/

section
variable {s : State}

theorem Ctx.ne_commandIn_of_transfer {c : Ctx} {t : Transfer} (h : c.transfer? = some t) : c ≠ .commandIn := by
  rintro rfl
  cases h

theorem BusEffect.toIdle {p : Port} (hc : s.ports[p].ctx ≠ .commandIn) (exp : Bool) :
    BusEffect s (s.onPort p (HostPort.toIdle exp)) :=
  .onPort (.single (.rest exp hc))

theorem BusEffect.refuse {p : Port} (hc : s.ports[p].ctx ≠ .commandIn) (r : Reason) (t : Transfer) :
    BusEffect s (s.refuse p r t) :=
  .onPort ((ReflTransGen.single (.rest false hc)).tail (.record r t))

theorem BusEffect.refuseWaiter (s : State) (m : Seg) (r : Reason) (p : Port) : BusEffect s (s.refuseWaiter m r p) := by
  unfold State.refuseWaiter
  split
  · next t ht => exact (BusEffect.onSeg s m _).trans (.refuse (s := s.stopWait m p) (Ctx.ne_commandIn_of_transfer ht) r t)
  · exact .onSeg s m _

theorem BusEffect.refuseAll (m : Seg) (r : Reason) (ps : List Port) (s : State) : BusEffect s (State.refuseAll m r ps s) := by
  induction ps generalizing s with
  | nil => exact .refl s
  | cons p ps ih => exact (BusEffect.refuseWaiter s m r p).trans (ih _)

theorem BusEffect.grant {p : Port} (hc : s.ports[p].ctx ≠ .commandIn) (m : Seg) (t : Transfer) :
    BusEffect s (s.grant m p t) :=
  have hseg : BusEffect s (s.setSegState m (.active p)) := .onSeg s m _
  (hseg.trans (.onPort (.single (.enter rfl hc)))).trans (.onEngine _ m _)

theorem BusEffect.enqueue {p : Port} (hc : s.ports[p].ctx ≠ .commandIn) (m : Seg) (t : Transfer) :
    BusEffect s (s.enqueue m p t) :=
  have hseg : BusEffect s (s.onSeg m fun a => { a with queue := a.queue ++ [p] }) := .onSeg s m _
  hseg.trans (.onPort (.single (.enter rfl hc)))

theorem BusEffect.arrive {p : Port} (hc : s.ports[p].ctx ≠ .commandIn) (t : Transfer) : BusEffect s (s.arrive p t) := by
  have hwait : BusEffect s (s.startWait t.snap.seg p) := .onSeg s _ _
  unfold State.arrive
  dsimp only
  split
  · exact hwait.trans (.grant (s := s.startWait _ p) hc _ t)
  · exact hwait.trans (.enqueue (s := s.startWait _ p) hc _ t)
  · split
    · exact hwait.trans (.enqueue (s := s.startWait _ p) hc _ t)
    · exact .refuse hc _ t
  · exact .refuse hc _ t
  · exact .refuse hc _ t

theorem BusEffect.serve (m : Seg) (ps : List Port) (s : State) : BusEffect s (State.serve m ps s) := by
  induction ps generalizing s with
  | nil => exact (BusEffect.onSeg s m _).trans (.onSeg _ m _)
  | cons p rest ih =>
    have hrest : BusEffect s (s.onSeg m fun a => { a with queue := rest }) := .onSeg s m _
    unfold State.serve
    dsimp only
    split
    · next t hc =>
      split
      · exact hrest.trans (.grant (s := s.onSeg m _) (p := p) (by rw [State.onSeg_ports, hc]; simp) m t)
      · exact (hrest.trans (.refuseWaiter _ m _ p)).trans (ih _)
    · exact (hrest.trans (.onSeg _ m _)).trans (ih _)

theorem BusEffect.handOver (s : State) (m : Seg) : BusEffect s (s.handOver m) := by
  unfold State.handOver
  split
  · exact (BusEffect.onSeg s m _).trans (.refuseAll m _ _ _)
  · exact .serve m _ s

theorem BusEffect.releaseBy (s : State) (m : Seg) (p : Port) (f : Engine → Engine) : BusEffect s (s.releaseBy m p f) :=
  (((BusEffect.onEngine s m f).trans (.onSeg _ m _)).trans (.handOver _ m)).trans (.onEngine _ m _)

theorem BusEffect.release (s : State) (m : Seg) (p : Port) : BusEffect s (s.release m p) := .releaseBy s m p _

theorem BusEffect.endRelay {p : Port} (hc : s.ports[p].ctx ≠ .commandIn) (m : Seg) : BusEffect s (s.endRelay m p) :=
  (BusEffect.toIdle hc false).trans (.release _ m p)

theorem BusEffect.breakPort {p : Port} (hr : s.ports[p].ctx.isRelay = true) (m : Seg) (t : Transfer) (c : BreakCause) :
    BusEffect s (s.breakPort m p t c) :=
  (BusEffect.onPort (.single (.breakOff t hr))).trans (.post _ _ _ _ _ _)

theorem BusEffect.beginRecovery (s : State) (m : Seg) (b : Option Port) : BusEffect s (s.beginRecovery m b) :=
  (BusEffect.onSeg s m _).trans (.onEngine _ m _)

theorem BusEffect.postOutcome (s : State) (m : Seg) (k : NoticeKind) : BusEffect s (s.postOutcome m k) := by
  unfold State.postOutcome
  generalize s.recoveryAudience m = ps
  induction ps generalizing s with
  | nil => exact .refl s
  | cons p ps ih => exact (BusEffect.post s p k none (some m) 0#8).trans (ih _)

theorem BusEffect.recoverySucceeds (s : State) (m : Seg) : BusEffect s (s.recoverySucceeds m) := by
  have hresume (u : State) : BusEffect u (u.resumeOrHandOver m) := by
    unfold State.resumeOrHandOver
    split
    · exact (BusEffect.onSeg u m _).trans (.onEngine _ m _)
    · exact .handOver u m
  exact ((BusEffect.onEngine s m _).trans (hresume _)).trans (.postOutcome _ m _)

theorem BusEffect.recoveryFails (s : State) (m : Seg) (acts : List BusAct) : BusEffect s (s.recoveryFails m acts) := by
  have hfail (u : State) : BusEffect u (u.failSegment m) := by
    unfold State.failSegment
    dsimp only
    split
    · exact (BusEffect.onSeg u m _).trans (.refuseAll m _ _ _)
    · exact (BusEffect.onSeg u m _).trans (.refuseAll m _ _ _)
  exact ((BusEffect.onEngine s m _).trans (hfail _)).trans (.postOutcome _ m _)

theorem BusEffect.forceRecovery (s : State) (m : Seg) : BusEffect s (s.forceRecovery m) := by
  unfold State.forceRecovery
  split
  · split
    · next hc => exact (BusEffect.breakPort (by rw [hc]; rfl) m _ _).trans (.beginRecovery _ m _)
    · next hc => exact (BusEffect.breakPort (by rw [hc]; rfl) m _ _).trans (.beginRecovery _ m _)
    · exact .beginRecovery s m none
  · exact .beginRecovery s m none

/-! ### A port without a transfer is left alone by the arbiters -/

theorem State.refuseWaiter_untransferred {p q : Port} (hq : s.ports[q].ctx.transfer? = none) (m : Seg) (r : Reason) :
    (s.refuseWaiter m r p).ports[q] = s.ports[q] := by
  unfold State.refuseWaiter
  split
  · next t ht =>
    have hne : p ≠ q := by rintro rfl; rw [hq] at ht; cases ht
    exact tabUpd_other _ _ _ _ hne
  · rfl

theorem State.refuseAll_untransferred (m : Seg) (r : Reason) (ps : List Port) (s : State) {q : Port}
    (hq : s.ports[q].ctx.transfer? = none) : (State.refuseAll m r ps s).ports[q] = s.ports[q] := by
  induction ps generalizing s with
  | nil => rfl
  | cons p ps ih =>
    have hp := State.refuseWaiter_untransferred (p := p) hq m r
    exact (ih (s.refuseWaiter m r p) (by rw [hp, hq])).trans hp

theorem State.grant_other {p q : Port} (hq : p ≠ q) (m : Seg) (t : Transfer) :
    (s.grant m p t).ports[q] = s.ports[q] :=
  tabUpd_other _ _ _ _ hq

/-- A queued port that is not in WAITING is passed over: R57 excludes it. -/
theorem State.serve_skipped {m : Seg} {p : Port} {rest : List Port} (h : ¬ ∃ t, s.ports[p].ctx = .waiting t) :
    State.serve m (p :: rest) s = State.serve m rest ((s.onSeg m fun a => { a with queue := rest }).stopWait m p) := by
  rw [State.serve]
  split
  · next t ht => exact absurd ⟨t, ht⟩ h
  · rfl

theorem State.serve_untransferred (m : Seg) (ps : List Port) (s : State) {q : Port}
    (hq : s.ports[q].ctx.transfer? = none) : (State.serve m ps s).ports[q] = s.ports[q] := by
  induction ps generalizing s with
  | nil => rfl
  | cons p rest ih =>
    by_cases hwaits : ∃ t, s.ports[p].ctx = .waiting t
    · obtain ⟨t, ht⟩ := hwaits
      have hne : p ≠ q := by rintro rfl; rw [ht] at hq; cases hq
      cases hc : s.checkAtGrant p t.dir t.snap with
      | none =>
        rw [State.serve_granted ht hc]
        exact State.grant_other hne m t
      | some r =>
        rw [State.serve_refused ht hc]
        have hp := State.refuseWaiter_untransferred (s := s.onSeg m fun a => { a with queue := rest }) (p := p) hq m r
        exact (ih _ (by rw [hp]; exact hq)).trans hp
    · rw [State.serve_skipped hwaits]
      exact ih _ hq

theorem State.handOver_untransferred (s : State) (m : Seg) {q : Port} (hq : s.ports[q].ctx.transfer? = none) :
    (s.handOver m).ports[q] = s.ports[q] := by
  unfold State.handOver
  split
  · exact State.refuseAll_untransferred m _ _ _ hq
  · exact State.serve_untransferred m _ s hq

theorem State.releaseBy_untransferred (s : State) (m : Seg) (p : Port) (f : Engine → Engine) {q : Port}
    (hq : s.ports[q].ctx.transfer? = none) : (s.releaseBy m p f).ports[q] = s.ports[q] :=
  State.handOver_untransferred ((s.onEngine m f).stopWait m p) m hq

end

end Sys2Proof.Machine
end

section
/-! SUPPORT. Every row of the table inverted: an event of the buses, the engines and the bus timers, a command taken, a frame
answered without one, a lease that expires, a device reset. -/

namespace Sys2Proof.Machine

open Relation (ReflTransGen)

/-- What the row taken in `s` with the next state `t` can be. -/
inductive RowEffect (s t : State) : Prop
  | bus (h : BusEffect s t)
  | command (p : Port) (c : Command) (u : State) (hu : BusEffect s u) (ht : t = u.perform p c)
  | answered (p : Port) (st : Status) (echo : Byte) (u : State) (hu : BusEffect s u) (ht : t = u.respond p st echo [])
  | expiry (e : EntryIx) (x : Slot × Lease) (hx : s.heldOn e = some x) (ht : t = s.expireLease x)
  | reset (adr admSel : BitVec 2) (ht : t = { State.resetWith adr admSel with pending := s.pending })

/-- Every next state of the outcome is that of a bus, an engine or a bus timer. -/
def BusRow (s : State) (r : Result) : Prop := Ensures r (BusEffect s)

theorem BusRow.effect {s : State} {r : Result} (h : BusRow s r) : Ensures r (RowEffect s) := h.mono fun _ => .bus

theorem busRow_next {s t : State} (h : BusEffect s t) : BusRow s (.next t) := ensures_next.2 h
theorem busRow_fault (s : State) (f : Fault) : BusRow s (.fault f) := ensures_fault
theorem busRow_refused (s : State) (r : Refusal) : BusRow s (.refused r) := ensures_refused

section
variable {s : State}

/-! ### Commands and frames -/

/-- The effect of an event that first does something on the buses. -/
theorem RowEffect.runCommand {u : State} (hu : BusEffect s u) (p : Port) (c : Command) :
    RowEffect s (u.runCommand p c) := by
  unfold State.runCommand
  split
  · exact .command p c u hu rfl
  · exact .answered p .denied _ u hu rfl

/-- The end of a frame leaves its port IDLE, empties its buffer, and answers or runs a command (R7, R143, R144). -/
theorem RowEffect.endFrame (p : Port) (exp : Bool) : RowEffect s ((s.onPort p (HostPort.toIdle exp)).takeFrame p) := by
  have hemptied : BusEffect s ((s.onPort p (HostPort.toIdle exp)).onBuffer p fun _ => FrameBuffer.reset) :=
    .onPortBuffer (.single (.endFrame exp))
  unfold State.takeFrame
  dsimp only
  split
  · exact .bus hemptied
  · split
    · exact .answered p _ _ _ hemptied rfl
    · split
      · exact .answered p _ _ _ hemptied rfl
      · split
        · exact .answered p _ _ _ hemptied rfl
        · exact .runCommand hemptied p _

theorem commandRow_rowEffect (s : State) (p : Port) (c : Command) : Ensures (s.commandRow p c) (RowEffect s) := by
  unfold State.commandRow
  split
  · exact ensures_next.2 (.runCommand (.refl s) p c)
  · exact ensures_refused

theorem badCommand_rowEffect (p : Port) (code : Byte) (s : State) : Ensures (execBadCommand p code s) (RowEffect s) := by
  unfold execBadCommand
  split
  · exact ensures_refused
  · split
    · exact ensures_next.2 (.answered p _ _ s (.refl s) rfl)
    · exact ensures_refused

/-! ### Events of the host buses -/

theorem startCondition_rowEffect (s : State) (p : Port) : Ensures (s.startCondition p) (RowEffect s) := by
  unfold State.startCondition
  dsimp only
  split
  · exact ensures_refused
  · next hclock =>
    have hrelay (hr : s.ports[p].ctx.isRelay = true) :
        BusEffect s (s.onPort p fun h => { h with addrExpected := true }.await []) :=
      .onPort (.single (.expectAddress (by simpa using hclock) hr))
    split
    · next hc => exact ensures_next.2 (.bus (.toIdle (by rw [hc]; simp) true))
    · exact ensures_next.2 (.endFrame p true)
    · next hc => exact ensures_next.2 (.bus (.toIdle (by rw [hc]; simp) true))
    · next hc => exact ensures_next.2 (.bus (.toIdle (by rw [hc]; simp) true))
    · next hc => exact ensures_next.2 (.bus (hrelay (by rw [hc]; rfl)))
    · next hc => exact ensures_next.2 (.bus (hrelay (by rw [hc]; rfl)))
    · exact ensures_refused
    · exact ensures_refused

theorem stop_rowEffect (p : Port) (s : State) : Ensures (execStop p s) (RowEffect s) := by
  unfold execStop
  dsimp only
  split
  · exact ensures_refused
  · split
    · next hc => exact ensures_next.2 (.bus (.toIdle (by rw [hc]; simp) false))
    · exact ensures_next.2 (.endFrame p false)
    · next hc => exact ensures_next.2 (.bus (.toIdle (by rw [hc]; simp) false))
    · next hc => exact ensures_next.2 (.bus (.toIdle (by rw [hc]; simp) false))
    · next hc => exact ensures_next.2 (.bus (.endRelay (by rw [hc]; simp) _))
    · next hc => exact ensures_next.2 (.bus (.endRelay (by rw [hc]; simp) _))
    · exact ensures_refused
    · exact ensures_refused

/-- The classification of an address byte (R4), on a port outside COMMAND_IN. -/
theorem BusEffect.classify {p : Port} (hc : s.ports[p].ctx ≠ .commandIn) (a : Addr) (d : Dir) :
    BusEffect s (s.classify p a d) := by
  unfold State.classify
  split
  · exact .toIdle hc false
  · split
    · cases d with
      | write => exact .onPortBuffer (.single (.beginFrame _))
      | read => exact .onPort (.single (.beginResponse _ hc))
    · split
      · unfold State.relayArrival
        split
        · exact .refuse hc _ _
        · exact .arrive hc _
      · exact .toIdle hc false

theorem State.onPort_self (s : State) (p : Port) (f : HostPort → HostPort) : (s.onPort p f).ports[p] = f s.ports[p] :=
  tabUpd_self _ _ _

/-- An address byte after a repeated start (R15), on a port outside COMMAND_IN. -/
theorem BusEffect.addressWhileHolding {p : Port} (hc : s.ports[p].ctx ≠ .commandIn) (m : Seg) (a : Addr) (d : Dir) :
    BusEffect s (s.addressWhileHolding m p a d) := by
  have hleave : BusEffect s (s.leaveSegment m p a d) := by
    refine (BusEffect.endRelay hc m).trans (.classify ?_ a d)
    unfold State.endRelay State.release
    rw [State.releaseBy_untransferred _ _ _ _ (by rw [State.onPort_self]; rfl), State.onPort_self]
    exact Ctx.noConfusion
  have hsame (t : Transfer) : BusEffect s (s.sameSegment p t) := by
    unfold State.sameSegment
    split
    · have hwait : BusEffect s (s.startWait t.snap.seg p) := .onSeg s _ _
      exact (hwait.trans (.onPort (.single (.enter rfl hc)))).trans (.onEngine _ _ _)
    · exact (BusEffect.refuse hc _ t).trans (.release _ _ p)
  unfold State.addressWhileHolding
  split
  · exact hleave
  · split
    · split
      · exact hsame _
      · exact hleave
    · exact hleave

theorem addressByte_busRow (p : Port) (a : Addr) (d : Dir) (s : State) : BusRow s (execAddressByte p a d s) := by
  unfold execAddressByte
  dsimp only
  split
  · exact busRow_refused _ _
  · split
    · next hc _ => exact busRow_next (.classify (by rw [hc]; simp) a d)
    · next hc _ => exact busRow_next (.toIdle (by rw [hc]; simp) false)
    · next hc _ => exact busRow_next (.addressWhileHolding (by rw [hc]; simp) _ a d)
    · next hc _ => exact busRow_next (.addressWhileHolding (by rw [hc]; simp) _ a d)
    · next hc _ => exact busRow_next (.classify (by rw [hc]; simp) a d)
    · exact busRow_refused _ _

/-- The port waits for its host again. -/
theorem BusEffect.await {p : Port} (hclock : s.ports[p].clockHeld = false) (ht : s.ports[p].ctx.timed = true)
    (acts : List UpAct) : BusEffect s (s.onPort p (HostPort.await acts)) :=
  .onPort (.single (.await acts hclock ht))

theorem BusEffect.upstream (p : Port) : BusEffect s (s.onPort p fun h => { h with upstream := [] }) :=
  .onPort (.single (.upstream []))

/-- A byte of a command frame (R6). -/
theorem BusEffect.frameByte {p : Port} (hclock : s.ports[p].clockHeld = false) (hc : s.ports[p].ctx = .commandIn)
    (b : Byte) : BusEffect s (s.frameByte p b) := by
  unfold State.frameByte
  split
  · next hroom =>
    exact BusEffect.onPortBuffer (f := HostPort.await [.acknowledge]) (g := fun f => { f with bytes := f.bytes ++ [b] })
      (.single (.store b _ hclock hc hroom))
  · next hfull =>
    exact BusEffect.onPortBuffer (f := HostPort.await []) (g := fun f => { f with overlong := true })
      (.single (.overrun _ hclock hc (not_lt.1 hfull)))

theorem dataByte_busRow (p : Port) (b : Byte) (s : State) : BusRow s (execDataByte p b s) := by
  unfold execDataByte
  dsimp only
  split
  · exact busRow_refused _ _
  · next hheld =>
    have hclock : s.ports[p].clockHeld = false := by simpa using hheld
    split
    · exact busRow_next (.upstream p)
    · next hc => exact busRow_next (.frameByte hclock hc b)
    · next hc =>
      split
      · exact busRow_refused _ _
      · next he =>
        split
        · exact busRow_next ((BusEffect.onPort (.single (.hold (by rw [hc]; rfl) (by simpa using he)))).trans (.onEngine _ _ _))
        · exact busRow_fault _ _
    · next t hc =>
      split
      · exact busRow_refused _ _
      · split
        · exact busRow_next
            (.onPort ((ReflTransGen.single (.record .broken t)).tail (.await [] hclock (by rw [HostPort.record, hc]; rfl))))
        · exact busRow_refused _ _
    · split
      · exact busRow_refused _ _
      · exact busRow_refused _ _
    · exact busRow_refused _ _
    · exact busRow_refused _ _
    · exact busRow_refused _ _

theorem hostAcknowledge_busRow (p : Port) (s : State) : BusRow s (execHostAcknowledge p s) := by
  unfold execHostAcknowledge
  dsimp only
  split
  · exact busRow_refused _ _
  · next hheld =>
    have hclock : s.ports[p].clockHeld = false := by simpa using hheld
    split
    · exact busRow_next (.upstream p)
    · next hc =>
      split
      · exact busRow_next (.await hclock (by rw [hc]; rfl) [])
      · exact busRow_next (.onPort (.single (.respond _ _ _ hc hclock)))
    · next hc =>
      split
      · exact busRow_refused _ _
      · next he =>
        split
        · exact busRow_next (.await hclock (by rw [hc]; rfl) [])
        · split
          · exact busRow_next ((BusEffect.onPort (.single (.hold (by rw [hc]; rfl) (by simpa using he)))).trans (.onEngine _ _ _))
          · exact busRow_fault _ _
    · next hc =>
      split
      · exact busRow_refused _ _
      · split
        · exact busRow_next (.await hclock (by rw [hc]; rfl) [])
        · exact busRow_refused _ _
    · split
      · exact busRow_refused _ _
      · exact busRow_refused _ _
    · exact busRow_refused _ _
    · exact busRow_refused _ _
    · exact busRow_refused _ _

theorem hostNotAcknowledge_busRow (p : Port) (s : State) : BusRow s (execHostNotAcknowledge p s) := by
  unfold execHostNotAcknowledge
  dsimp only
  split
  · exact busRow_refused _ _
  · next hheld =>
    have hclock : s.ports[p].clockHeld = false := by simpa using hheld
    split
    · exact busRow_next (.upstream p)
    · next hc => exact busRow_next (.onPort (.single (.respond _ _ _ hc hclock)))
    · next hc =>
      split
      · exact busRow_refused _ _
      · split
        · exact busRow_next (.await hclock (by rw [hc]; rfl) [])
        · split
          · exact busRow_next ((BusEffect.onPort (.single (.closeRead hclock (by rw [hc]; rfl)))).trans (.onEngine _ _ _))
          · exact busRow_fault _ _
    · next hc =>
      split
      · exact busRow_refused _ _
      · split
        · exact busRow_next (.await hclock (by rw [hc]; rfl) [])
        · exact busRow_refused _ _
    · split
      · exact busRow_refused _ _
      · exact busRow_refused _ _
    · exact busRow_refused _ _
    · exact busRow_refused _ _
    · exact busRow_refused _ _

/-! ### Expiries -/

theorem abandonExpiry_busRow (p : Port) (s : State) : BusRow s (execAbandonExpiry p s) := by
  unfold execAbandonExpiry
  split
  · exact busRow_refused _ _
  · split
    · next hc => exact busRow_next ((BusEffect.endRelay (by rw [hc]; simp) _).trans (.post _ _ _ _ _ _))
    · next hc => exact busRow_next ((BusEffect.endRelay (by rw [hc]; simp) _).trans (.post _ _ _ _ _ _))
    · next hc => exact busRow_next ((BusEffect.toIdle (by rw [hc]; simp) false).trans (.post _ _ _ _ _ _))
    · exact busRow_next ((BusEffect.onPortBuffer (.single (.endFrame false))).trans (.post _ _ _ _ _ _))
    · next hc => exact busRow_next ((BusEffect.toIdle (by rw [hc]; simp) false).trans (.post _ _ _ _ _ _))
    · exact busRow_fault _ _
    · exact busRow_fault _ _
    · exact busRow_fault _ _

theorem waitExpiry_busRow (p : Port) (s : State) : BusRow s (execWaitExpiry p s) := by
  unfold execWaitExpiry
  split
  · split
    · exact busRow_next ((BusEffect.onSeg s _ _).trans (.refuseWaiter _ _ _ p))
    · exact busRow_refused _ _
  · next t hc =>
    have hne : s.ports[p].ctx ≠ .commandIn := by rw [hc]; simp
    split
    · unfold State.expireAddressing
      split
      · exact busRow_next ((BusEffect.onSeg s _ _).trans (.refuseWaiter _ _ _ p))
      · exact busRow_next ((BusEffect.refuse hne _ t).trans (.release _ _ p))
    · exact busRow_refused _ _
  · exact busRow_refused _ _

theorem leaseExpiry_rowEffect (e : EntryIx) (s : State) : Ensures (execLeaseExpiry e s) (RowEffect s) := by
  unfold execLeaseExpiry
  split
  · next x hx => exact ensures_next.2 (.expiry e x hx rfl)
  · exact ensures_refused

/-! ### Events of the segments -/

theorem State.servedAddressing_some {m : Seg} {p : Port} {t : Transfer} (h : s.servedAddressing m = some (p, t)) :
    s.engines[m].served = some p ∧ s.ports[p].ctx = .addressing t := by
  unfold State.servedAddressing at h
  split at h
  · next q hq =>
    split at h
    · next u hu =>
      cases h
      exact ⟨hq, hu⟩
    · cases h
  · cases h

theorem State.servedRelay_some {m : Seg} {p : Port} {t : Transfer} (h : s.servedRelay m = some (p, t)) :
    s.engines[m].served = some p ∧ (s.ports[p].ctx = .relayWrite t ∨ s.ports[p].ctx = .relayRead t) := by
  unfold State.servedRelay at h
  split at h
  · next q hq =>
    split at h
    · next u hu =>
      cases h
      exact ⟨hq, .inl hu⟩
    · next u hu =>
      cases h
      exact ⟨hq, .inr hu⟩
    · cases h
  · cases h

theorem State.servedRelay_isRelay {m : Seg} {p : Port} {t : Transfer} (h : s.servedRelay m = some (p, t)) :
    s.ports[p].ctx.isRelay = true := by
  obtain ⟨-, hc | hc⟩ := State.servedRelay_some h <;> rw [hc] <;> rfl

theorem lineCheckPassed_busRow (m : Seg) (s : State) : BusRow s (execLineCheckPassed m s) := by
  unfold execLineCheckPassed
  dsimp only
  split
  · split
    · exact busRow_next (.onEngine s m _)
    · exact busRow_fault _ _
  · exact busRow_refused _ _

theorem targetAcknowledgesAddress_busRow (m : Seg) (s : State) : BusRow s (execTargetAcknowledgesAddress m s) := by
  unfold execTargetAcknowledgesAddress
  split
  · split
    · next p t h =>
      obtain ⟨-, hc⟩ := State.servedAddressing_some h
      have hstop : BusEffect s (s.stopWait m p) := .onSeg s m _
      exact busRow_next ((hstop.trans (.onPort (.single (.addressAcknowledged t hc)))).trans (.onEngine _ m _))
    · exact busRow_fault _ _
  · exact busRow_refused _ _

theorem targetNack_busRow (m : Seg) (s : State) : BusRow s (execTargetNack m s) := by
  unfold execTargetNack
  split
  · split
    · next p t h =>
      obtain ⟨-, hc⟩ := State.servedAddressing_some h
      exact busRow_next ((BusEffect.refuse (by rw [hc]; simp) _ t).trans (.releaseBy _ m p _))
    · exact busRow_fault _ _
  · exact busRow_refused _ _

theorem writeByteAnswered_busRow (m : Seg) (acked : Bool) (s : State) : BusRow s (execWriteByteAnswered m acked s) := by
  unfold execWriteByteAnswered
  split
  · split
    · next h =>
      exact busRow_next ((BusEffect.onPort (.single (.answer _ (State.servedRelay_isRelay h)))).trans (.onEngine _ m _))
    · exact busRow_fault _ _
  · exact busRow_refused _ _

theorem readByteFetched_busRow (m : Seg) (b : Byte) (s : State) : BusRow s (execReadByteFetched m b s) := by
  unfold execReadByteFetched
  split
  · split
    · next h =>
      exact busRow_next ((BusEffect.onPort (.single (.answer _ (State.servedRelay_isRelay h)))).trans (.onEngine _ m _))
    · exact busRow_fault _ _
  · exact busRow_refused _ _

theorem closingByteFinished_busRow (m : Seg) (acked : Bool) (s : State) : BusRow s (execClosingByteFinished m acked s) := by
  unfold execClosingByteFinished
  split
  · exact busRow_next (.onEngine s m _)
  · exact busRow_refused _ _

theorem stopComplete_busRow (m : Seg) (s : State) : BusRow s (execStopComplete m s) := by
  unfold execStopComplete
  split
  · exact busRow_next (.onEngine s m _)
  · exact busRow_refused _ _

theorem lineHeld_busRow (m : Seg) (l : Line) (s : State) : BusRow s (execLineHeld m l s) := by
  unfold execLineHeld
  dsimp only
  split
  · exact busRow_next (.onEngine s m _)
  · split
    · exact busRow_next (.onEngine s m _)
    · exact busRow_next (.refl s)

theorem lineReleased_busRow (m : Seg) (l : Line) (s : State) : BusRow s (execLineReleased m l s) := by
  unfold execLineReleased
  split
  · exact busRow_next (.onEngine s m _)
  · exact busRow_next (.onEngine s m _)

theorem holdTimerExpiry_busRow (m : Seg) (s : State) : BusRow s (execHoldTimerExpiry m s) := by
  have hunserved : BusEffect s (s.holdExpiryUnserved m) := by
    unfold State.holdExpiryUnserved
    split
    · exact .onEngine s m _
    · exact .beginRecovery s m none
  have hbreak {p : Port} {t : Transfer} (h : s.servedRelay m = some (p, t)) :
      BusEffect s ((s.breakPort m p t .holdExpired).beginRecovery m (some p)) :=
    (BusEffect.breakPort (State.servedRelay_isRelay h) m t _).trans (.beginRecovery _ m _)
  unfold execHoldTimerExpiry
  dsimp only
  split
  · exact busRow_refused _ _
  · split
    · exact busRow_next hunserved
    · split
      · exact busRow_next hunserved
      · exact busRow_next (.beginRecovery s m none)
      · exact busRow_next (.beginRecovery s m none)
      · split
        · next h => exact busRow_next (hbreak h)
        · exact busRow_fault _ _
      · split
        · next h => exact busRow_next (hbreak h)
        · exact busRow_fault _ _
      · exact busRow_next (.recoveryFails s m [])
      · exact busRow_fault _ _

theorem recoveryPulse_busRow (m : Seg) (dataHigh : Bool) (s : State) : BusRow s (execRecoveryPulse m dataHigh s) := by
  unfold execRecoveryPulse
  dsimp only
  split
  · split
    · exact busRow_next ((BusEffect.onEngine s m _).trans (.recoveryFails _ m _))
    · exact busRow_next (.onEngine s m _)
  · exact busRow_refused _ _

theorem recoverySucceeded_busRow (m : Seg) (s : State) : BusRow s (execRecoverySucceeded m s) := by
  unfold execRecoverySucceeded
  split
  · exact busRow_next (.recoverySucceeds s m)
  · exact busRow_refused _ _

/-- An arbitration loss (R98 to R101). -/
theorem lose_busRow (s : State) (m : Seg) : BusRow s (s.lose m) := by
  have hlost : BusEffect s (s.afterLoss m) := (BusEffect.onEngine s m _).trans (.onSeg _ m _)
  unfold State.lose
  dsimp only
  split
  · refine busRow_next (hlost.trans ?_)
    unfold State.lossUnserved
    split
    · exact .onEngine _ m _
    · exact .onEngine _ m _
  · split
    · next p t h =>
      have hc : (s.afterLoss m).ports[p].ctx = .addressing t := (State.servedAddressing_some h).2
      refine busRow_next (hlost.trans ?_)
      unfold State.lossInAddress
      split
      · exact .onEngine _ m _
      · exact (BusEffect.refuse (by rw [hc]; simp) _ t).trans (.releaseBy _ m p _)
    · split
      · next p t h =>
        have hr : s.ports[p].ctx.isRelay = true := State.servedRelay_isRelay h
        have hbreak : BusEffect (s.afterLoss m) ((s.afterLoss m).breakPort m p t .arbitrationLost) :=
          .breakPort (s := s.afterLoss m) hr m t _
        exact busRow_next (hlost.trans (hbreak.trans (.releaseBy _ m p _)))
      · exact busRow_fault _ _

theorem arbitrationLoss_busRow (m : Seg) (s : State) : BusRow s (execArbitrationLoss m s) := by
  unfold execArbitrationLoss
  split
  · exact lose_busRow s m
  · exact busRow_refused _ _

theorem foreignStart_busRow (m : Seg) (s : State) : BusRow s (execForeignStart m s) := by
  unfold execForeignStart
  dsimp only
  split
  · exact lose_busRow s m
  · split
    · exact busRow_next (.refl s)
    · exact busRow_next (.onEngine s m _)

theorem foreignStop_busRow (m : Seg) (linesHigh : Bool) (s : State) : BusRow s (execForeignStop m linesHigh s) := by
  have hclear : BusEffect s (s.onEngine m Engine.clearForeign) := .onEngine s m _
  unfold execForeignStop
  dsimp only
  split
  · exact lose_busRow s m
  · split
    · exact busRow_next (.refl s)
    · split
      · split
        · exact busRow_next (.refl s)
        · exact busRow_next hclear
      · split
        · split
          · split
            · exact busRow_next (hclear.trans (.onEngine _ m _))
            · exact busRow_fault _ _
          · exact busRow_next hclear
        · exact busRow_next (.refl s)

/-- Every row of the table. -/
theorem exec_rowEffect (i : Instr) (s : State) : Ensures (exec i s) (RowEffect s) := by
  cases i with
  | deviceReset adr admSel => exact ensures_next.2 (.reset adr admSel rfl)
  | start p => exact startCondition_rowEffect s p
  | repeatedStart p => exact startCondition_rowEffect s p
  | stop p => exact stop_rowEffect p s
  | addressByte p a d => exact (addressByte_busRow p a d s).effect
  | dataByte p b => exact (dataByte_busRow p b s).effect
  | hostAcknowledge p => exact (hostAcknowledge_busRow p s).effect
  | hostNotAcknowledge p => exact (hostNotAcknowledge_busRow p s).effect
  | abandonExpiry p => exact (abandonExpiry_busRow p s).effect
  | waitExpiry p => exact (waitExpiry_busRow p s).effect
  | lineCheckPassed m => exact (lineCheckPassed_busRow m s).effect
  | targetAcknowledgesAddress m => exact (targetAcknowledgesAddress_busRow m s).effect
  | targetNack m => exact (targetNack_busRow m s).effect
  | writeByteAnswered m acked => exact (writeByteAnswered_busRow m acked s).effect
  | readByteFetched m b => exact (readByteFetched_busRow m b s).effect
  | closingByteFinished m acked => exact (closingByteFinished_busRow m acked s).effect
  | stopComplete m => exact (stopComplete_busRow m s).effect
  | holdTimerExpiry m => exact (holdTimerExpiry_busRow m s).effect
  | recoveryPulse m dataHigh => exact (recoveryPulse_busRow m dataHigh s).effect
  | recoverySucceeded m => exact (recoverySucceeded_busRow m s).effect
  | foreignStart m => exact (foreignStart_busRow m s).effect
  | foreignStop m linesHigh => exact (foreignStop_busRow m linesHigh s).effect
  | arbitrationLoss m => exact (arbitrationLoss_busRow m s).effect
  | leaseExpiry e => exact leaseExpiry_rowEffect e s
  | badCommand p code => exact badCommand_rowEffect p code s
  | lineHeld m l => exact (lineHeld_busRow m l s).effect
  | lineReleased m l => exact (lineReleased_busRow m l s).effect
  | _ => exact commandRow_rowEffect s _ _

end

end Sys2Proof.Machine
end

section
/-! SUPPORT. What a command does to the ports, the frame buffers and the responses (R142, R146, R153): every operation on the
Lease Table leaves them alone, and each command answers its caller with at most 20 bytes of payload. -/

namespace Sys2Proof.Machine

open Relation (ReflTransGen)

/-! ### Operations on the Lease Table alone -/

/-- The state without its lease records, token counter and notices: what no operation on the Lease Table changes. -/
def State.besideTable (s : State) : State := { s.besideLeases with tokenCounter := 0#8 }

/-- What leaves everything but leases and notices leaves everything but leases, notices and the token counter. -/
theorem besideTable_of_besideLeases {s t : State} (h : t.besideLeases = s.besideLeases) : t.besideTable = s.besideTable :=
  congrArg (fun u : State => { u with tokenCounter := 0#8 }) h

@[simp] theorem State.onNotices_besideTable (s : State) (p : Port) (f : NoticeQueue → NoticeQueue) :
    (s.onNotices p f).besideTable = s.besideTable := rfl
@[simp] theorem State.setLease_besideTable (s : State) (i : Slot) (l : Option Lease) :
    (s.setLease i l).besideTable = s.besideTable := rfl
@[simp] theorem State.afterIssue_besideTable (s : State) (tok : Byte) : (s.afterIssue tok).besideTable = s.besideTable := rfl
@[simp] theorem State.closeGap_besideTable (s : State) (e : EntryIx) (k : Nat) :
    (s.closeGap e k).besideTable = s.besideTable := rfl
@[simp] theorem State.post_besideTable (s : State) (p : Port) (k : NoticeKind) (e : Option EntryIx) (m : Option Seg)
    (tok : Byte) : (s.post p k e m tok).besideTable = s.besideTable := rfl
@[simp] theorem State.makeLease_besideTable (s : State) (i : Slot) (p : Port) (e : EntryIx) (d : Nat) (st : LeaseStatus) :
    (s.makeLease i p e d st).besideTable = s.besideTable := rfl

@[simp] theorem State.freeRecord_besideTable (s : State) (x : Slot × Lease) :
    (s.freeRecord x).besideTable = s.besideTable :=
  besideTable_of_besideLeases (s.freeRecord_besideLeases x)

@[simp] theorem State.revoke_besideTable (s : State) (x : Slot × Lease) (c : RevokeCause) (m : Option Seg) :
    (s.revoke x c m).besideTable = s.besideTable :=
  besideTable_of_besideLeases (s.revoke_besideLeases x c m)

@[simp] theorem State.promote_besideTable (s : State) (e : EntryIx) : (s.promote e).besideTable = s.besideTable := by
  unfold State.promote
  split <;> simp

@[simp] theorem State.freeAndPromote_besideTable (s : State) (x : Slot × Lease) :
    (s.freeAndPromote x).besideTable = s.besideTable := by
  simp [State.freeAndPromote]

@[simp] theorem State.expireLease_besideTable (s : State) (x : Slot × Lease) :
    (s.expireLease x).besideTable = s.besideTable := by
  simp [State.expireLease]

@[simp] theorem State.revokeHeld_besideTable (s : State) (e : EntryIx) (c : RevokeCause) (m : Option Seg) :
    (s.revokeHeld e c m).besideTable = s.besideTable := by
  unfold State.revokeHeld
  split <;> simp

@[simp] theorem State.cancelPending_besideTable (e : EntryIx) (c : RevokeCause) (m : Option Seg) (n : Nat) (s : State) :
    (State.cancelPending e c m n s).besideTable = s.besideTable := by
  induction n generalizing s with
  | zero => rfl
  | succ n ih =>
    unfold State.cancelPending
    split
    · exact (ih _).trans (s.revoke_besideTable _ c m)
    · rfl

@[simp] theorem State.clearEntry_besideTable (s : State) (e : EntryIx) (c d : RevokeCause) (m : Option Seg) :
    (s.clearEntry e c d m).besideTable = s.besideTable := by
  simp [State.clearEntry]

@[simp] theorem State.cancelUnseen_besideTable (e : EntryIx) (vis : PortMask) (m : Option Seg) (n : Nat) (s : State) :
    (State.cancelUnseen e vis m n s).besideTable = s.besideTable := by
  induction n generalizing s with
  | zero => rfl
  | succ n ih =>
    unfold State.cancelUnseen
    split
    · exact (ih _).trans (s.revoke_besideTable _ _ m)
    · rfl

@[simp] theorem State.loseVisibility_besideTable (s : State) (e : EntryIx) (vis : PortMask) (m : Option Seg) :
    (s.loseVisibility e vis m).besideTable = s.besideTable := by
  unfold State.loseVisibility
  repeat' split
  all_goals simp

@[simp] theorem State.cutHeld_besideTable (s : State) (e : EntryIx) (ms : Nat) : (s.cutHeld e ms).besideTable = s.besideTable := by
  unfold State.cutHeld
  split <;> simp

@[simp] theorem State.freeOwn_besideTable (s : State) (q : Port) (e : EntryIx) : (s.freeOwn q e).besideTable = s.besideTable := by
  unfold State.freeOwn
  repeat' split
  all_goals simp

@[simp] theorem State.freeAllOwn_besideTable (s : State) (q : Port) : (s.freeAllOwn q).besideTable = s.besideTable := by
  unfold State.freeAllOwn
  generalize allEntries = es
  induction es generalizing s with
  | nil => rfl
  | cons e es ih => exact (ih _).trans (s.freeOwn_besideTable q e)

/-! ### Ports, buffers and responses -/

/-- What an event does to the host ports and the Command Unit's tables: each port and its buffer goes by port moves, and a
response that changes is given at most 20 bytes of payload. -/
structure HostEffect (s t : State) : Prop where
  moves : ∀ q, PortMoves (s.portAndBuffer q) (t.portAndBuffer q)
  responses : ∀ q : Port, t.responses[q] = s.responses[q] ∨ t.responses[q].payload.length ≤ 20

theorem BusEffect.host {s t : State} (h : BusEffect s t) : HostEffect s t := by
  have hr : t.responses = s.responses := congrArg (fun r => r.2.2.2) h.records
  exact ⟨h.moves, fun q => .inl (by rw [hr])⟩

theorem HostEffect.trans {s t u : State} (h : HostEffect s t) (h' : HostEffect t u) : HostEffect s u := by
  refine ⟨fun q => (h.moves q).trans (h'.moves q), fun q => ?_⟩
  obtain hq | hq := h'.responses q
  · rw [hq]
    exact h.responses q
  · exact .inr hq

theorem HostEffect.of_same {s t : State} (hp : t.ports = s.ports) (hb : t.buffers = s.buffers)
    (hr : t.responses = s.responses) : HostEffect s t :=
  ⟨fun q => by unfold State.portAndBuffer; rw [hp, hb], fun q => .inl (by rw [hr])⟩

theorem HostEffect.of_besideTable {s t : State} (h : t.besideTable = s.besideTable) : HostEffect s t :=
  .of_same (congrArg State.ports h :) (congrArg State.buffers h :) (congrArg State.responses h :)

/-- A response is written. -/
theorem HostEffect.respond (s : State) (p : Port) (st : Status) (echo : Byte) {payload : List Byte}
    (h : payload.length ≤ 20) : HostEffect s (s.respond p st echo payload) := by
  refine ⟨fun _ => .refl, fun q => ?_⟩
  by_cases hq : q = p
  · subst hq
    exact .inr (by simpa using h)
  · exact .inl (State.respond_other hq st echo payload)

/-- A command that changes nothing of the host ports and the Command Unit but its caller's response. -/
theorem HostEffect.answer {s u : State} (hu : HostEffect s u) (p : Port) (st : Status) (echo : Byte) {payload : List Byte}
    (h : payload.length ≤ 20) : HostEffect s (u.respond p st echo payload) :=
  hu.trans (.respond u p st echo h)

section
variable (s : State) (p : Port)

theorem HostEffect.refl : HostEffect s s := .of_same rfl rfl rfl

theorem HostEffect.badArgument (op : Op) : HostEffect s (s.badArgument p op) := .respond s p _ _ (by simp)

theorem HostEffect.cmdInsr (index vb span seg tb vis wp mode : Byte) (ml : Half) :
    HostEffect s (s.cmdInsr p index vb span seg tb vis wp mode ml) := by
  unfold State.cmdInsr
  split
  · exact .badArgument s p _
  · next e r _ =>
    split
    · exact .respond s p _ _ (by simp)
    · split
      · exact .respond s p _ _ (by simp)
      · split
        · exact .respond s p _ _ (by simp)
        · exact .answer (.of_same (s.onEntry_ports e _) rfl rfl) p _ _ (by simp)

theorem HostEffect.cmdDelr (index : Byte) : HostEffect s (s.cmdDelr p index) := by
  unfold State.cmdDelr
  split
  · exact .badArgument s p _
  · next e _ =>
    split
    · exact .respond s p _ _ (by simp)
    · have hremoved : HostEffect s (s.onEntry e fun x => { x with route := none }) := .of_same rfl rfl rfl
      exact .answer (hremoved.trans (.of_besideTable (State.clearEntry_besideTable _ e _ _ _))) p _ _ (by simp)

theorem HostEffect.cmdModr (index vis wp mode : Byte) (ml : Half) : HostEffect s (s.cmdModr p index vis wp mode ml) := by
  unfold State.cmdModr
  split
  · exact .badArgument s p _
  · next e x _ =>
    split
    · exact .respond s p _ _ (by simp)
    · next r _ =>
      split
      · exact .respond s p _ _ (by simp)
      · have hchanged : HostEffect s (s.onEntry e fun y => { y with route := some (r.withAccess x) }) := .of_same rfl rfl rfl
        refine .answer (hchanged.trans (.of_besideTable ?_)) p _ _ (by simp)
        rw [State.cutHeld_besideTable, State.loseVisibility_besideTable]

theorem HostEffect.cmdRdrt (index : Byte) : HostEffect s (s.cmdRdrt p index) := by
  unfold State.cmdRdrt
  split
  · exact .badArgument s p _
  · refine .respond s p _ _ ?_
    unfold Entry.payload
    split <;> simp [halfBytes]

theorem HostEffect.cmdDflt (port segment : Byte) : HostEffect s (s.cmdDflt p port segment) := by
  unfold State.cmdDflt
  split
  · exact .badArgument s p _
  · next q d _ =>
    have hset : HostEffect s { s with defaults := tabUpd s.defaults q fun _ => d } := .of_same rfl rfl rfl
    exact .answer hset p _ _ (by simp)

theorem HostEffect.cmdLacq (index : Byte) (duration : Half) (wait : Byte) :
    HostEffect s (s.cmdLacq p index duration wait) := by
  unfold State.cmdLacq
  split
  · exact .badArgument s p _
  · split
    · exact .respond s p _ _ (by simp)
    · split
      · exact .respond s p _ _ (by simp)
      · split
        · exact .respond s p _ _ (by simp [halfBytes])
        · split
          · exact .respond s p _ _ (by simp)
          · split
            · exact .respond s p _ _ (by simp)
            · split
              · exact .answer (.of_besideTable (by simp)) p _ _ (by simp [halfBytes])
              · split
                · exact .answer (.of_besideTable (by simp)) p _ _ (by simp)
                · exact .respond s p _ _ (by simp)

theorem HostEffect.cmdLren (index token : Byte) (duration : Half) : HostEffect s (s.cmdLren p index token duration) := by
  unfold State.cmdLren
  split
  · exact .badArgument s p _
  · split
    · exact .respond s p _ _ (by simp)
    · split
      · exact .answer (.of_besideTable (by simp)) p _ _ (by simp [halfBytes])
      · exact .respond s p _ _ (by simp)

theorem HostEffect.cmdLrel (index token : Byte) : HostEffect s (s.cmdLrel p index token) := by
  unfold State.cmdLrel
  split
  · exact .badArgument s p _
  · split
    · unfold State.cancelLease
      split
      · exact .respond s p _ _ (by simp)
      · split
        · exact .respond s p _ _ (by simp)
        · exact .answer (.of_besideTable (by simp)) p _ _ (by simp)
    · unfold State.releaseLease
      split
      · exact .respond s p _ _ (by simp)
      · split
        · exact .answer (.of_besideTable (by simp)) p _ _ (by simp)
        · exact .respond s p _ _ (by simp)

theorem HostEffect.cmdLrev (index : Byte) : HostEffect s (s.cmdLrev p index) := by
  unfold State.cmdLrev
  split
  · exact .badArgument s p _
  · split
    · exact .respond s p _ _ (by simp)
    · split
      · exact .respond s p _ _ (by simp)
      · exact .answer (.of_besideTable (by simp)) p _ _ (by simp)

theorem HostEffect.cmdLqry (index : Byte) : HostEffect s (s.cmdLqry p index) := by
  unfold State.cmdLqry
  split
  · exact .badArgument s p _
  · next e _ =>
    split
    · exact .respond s p _ _ (by simp)
    · dsimp only
      split
      · exact .respond s p _ _ (by cases s.recordOf p e <;> simp [halfBytes])
      · exact .respond s p _ _ (by cases s.recordOf p e <;> simp [halfBytes])

theorem HostEffect.cmdScfg (segment enable shared waitLimit holdLimit : Byte) :
    HostEffect s (s.cmdScfg p segment enable shared waitLimit holdLimit) := by
  unfold State.cmdScfg
  split
  · exact .badArgument s p _
  · exact .answer (BusEffect.onSeg s _ _).host p _ _ (by simp)

theorem HostEffect.cmdSsta (segment : Byte) : HostEffect s (s.cmdSsta p segment) := by
  unfold State.cmdSsta
  split
  · exact .badArgument s p _
  · exact .respond s p _ _ (by simp [Arbiter.payload, halfBytes])

theorem HostEffect.cmdSrcv (segment : Byte) : HostEffect s (s.cmdSrcv p segment) := by
  unfold State.cmdSrcv
  split
  · exact .badArgument s p _
  · next m _ =>
    split
    · exact .respond s p _ _ (by simp)
    · exact .respond s p _ _ (by simp)
    · exact .answer (BusEffect.forceRecovery s m).host p _ _ (by simp)

theorem HostEffect.cmdNfet : HostEffect s (s.cmdNfet p) := by
  refine .answer (.of_besideTable (s.onNotices_besideTable p _)) p _ _ ?_
  unfold NoticeQueue.fetchPayload
  split <;> simp [Notice.bytes, noNoticeBytes]

theorem HostEffect.cmdPsta (port : Byte) : HostEffect s (s.cmdPsta p port) := by
  unfold State.cmdPsta
  split
  · exact .badArgument s p _
  · refine .respond s p _ _ ?_
    unfold State.portStatus HostPort.refusalBytes
    split <;> simp

theorem HostEffect.cmdRght (port rights quota : Byte) : HostEffect s (s.cmdRght p port rights quota) := by
  unfold State.cmdRght
  split
  · exact .badArgument s p _
  · next q row _ =>
    split
    · exact .respond s p _ _ (by simp)
    · exact .answer (.of_same (s.onRights_ports q _) rfl rfl) p _ _ (by simp)

/-- What a port reset of `q` by another port does on the buses (R21, R68). -/
theorem BusEffect.resetContext (q : Port) : BusEffect s (s.resetContext q) := by
  have hreset (hc : s.ports[q].ctx ≠ .commandIn) : BusEffect s (s.onPort q HostPort.portReset) :=
    .onPort ((ReflTransGen.single (.rest false hc)).tail .clearRefusal)
  unfold State.resetContext
  dsimp only
  split
  · next hc => exact hreset (by rw [hc]; simp)
  · next hc => exact ((hreset (by rw [hc]; simp)).trans (.onSeg _ _ _)).trans (.onSeg _ _ _)
  · next hc =>
    split
    · exact ((hreset (by rw [hc]; simp)).trans (.onSeg _ _ _)).trans (.onSeg _ _ _)
    · exact (hreset (by rw [hc]; simp)).trans (.release _ _ q)
  · next hc => exact (hreset (by rw [hc]; simp)).trans (.release _ _ q)
  · next hc => exact (hreset (by rw [hc]; simp)).trans (.release _ _ q)
  · next hc => exact hreset (by rw [hc]; simp)
  · exact .onPortBuffer ((ReflTransGen.single (.endFrame false)).tail .clearRefusal)
  · next hc => exact hreset (by rw [hc]; simp)

/-- The first step of a port reset: what the port reset by itself or by another does on the buses (R21). -/
theorem BusEffect.portReset (q : Port) :
    BusEffect s (if q = p then s.onPort q HostPort.clearRefusal else s.resetContext q) := by
  split
  · exact .onPort (.single .clearRefusal)
  · exact .resetContext s q

theorem HostEffect.cmdPrst (port : Byte) : HostEffect s (s.cmdPrst p port) := by
  unfold State.cmdPrst
  split
  · exact .badArgument s p _
  · next q _ =>
    have hfreed : HostEffect s (((if q = p then s.onPort q HostPort.clearRefusal else s.resetContext q).freeAllOwn q).onNotices q
        (NoticeQueue.portReset p)) :=
      (BusEffect.portReset s p q).host.trans (.of_besideTable (by simp))
    exact .answer (hfreed.trans (.respond _ q .noCommand 0#8 (payload := []) (by simp))) p _ _ (by simp)

theorem HostEffect.cmdIdnt : HostEffect s (s.cmdIdnt p) := .respond s p _ _ (by simp)

/-- Every command from its arguments step on. -/
theorem HostEffect.perform (c : Command) : HostEffect s (s.perform p c) := by
  cases c with
  | insr => exact .cmdInsr ..
  | delr => exact .cmdDelr ..
  | modr => exact .cmdModr ..
  | rdrt => exact .cmdRdrt ..
  | dflt => exact .cmdDflt ..
  | lacq => exact .cmdLacq ..
  | lren => exact .cmdLren ..
  | lrel => exact .cmdLrel ..
  | lrev => exact .cmdLrev ..
  | lqry => exact .cmdLqry ..
  | scfg => exact .cmdScfg ..
  | ssta => exact .cmdSsta ..
  | srcv => exact .cmdSrcv ..
  | nfet => exact .cmdNfet ..
  | psta => exact .cmdPsta ..
  | rght => exact .cmdRght ..
  | prst => exact .cmdPrst ..
  | idnt => exact .cmdIdnt ..

end

/-- Every row but a device reset. -/
theorem RowEffect.host {s t : State} (h : RowEffect s t) :
    HostEffect s t ∨ ∃ adr admSel, t = { State.resetWith adr admSel with pending := s.pending } := by
  cases h with
  | bus h => exact .inl h.host
  | command p c u hu ht => exact .inl (ht ▸ hu.host.trans (.perform u p c))
  | answered p st echo u hu ht => exact .inl (ht ▸ hu.host.answer p st echo (by simp))
  | expiry e x hx ht => exact .inl (ht ▸ .of_besideTable (s.expireLease_besideTable x))
  | reset adr admSel ht => exact .inr ⟨adr, admSel, ht⟩

/-- A law of host ports, buffers and responses that holds at reset and that a tick and every such effect keeps, is kept by
every step. -/
theorem keptByStep_of_host {Inv : State → Prop} (hpending : ∀ s rest, Inv s → Inv { s with pending := rest })
    (htick : ∀ s, Inv s → Inv s.tick) (hreset : ∀ adr admSel, Inv (State.resetWith adr admSel))
    (heffect : ∀ {s t}, HostEffect s t → Inv s → Inv t) : KeptByStep Inv := by
  refine keptByStep_of_exec hpending htick fun i s hs => (exec_rowEffect i s).mono fun t ht => ?_
  obtain h | ⟨adr, admSel, rfl⟩ := ht.host
  · exact heffect h hs
  · exact hpending _ _ (hreset adr admSel)

end Sys2Proof.Machine
end

section
/-! SUPPORT. O9 and O4 settled: the laws of ports (R12, R18), rights (R148), buffers (R142) and responses (R146). -/

namespace Sys2Proof.Machine

/-! ### Time and reset -/

theorem State.tick_portAndBuffer (s : State) (p : Port) : s.tick.portAndBuffer p =
    ({ s.ports[p] with abandon := s.ports[p].abandon.tick }, s.buffers[p]) := by
  simp [State.portAndBuffer, State.tick]

theorem HostPort.Lawful.tick {h : HostPort} (hl : h.Lawful) : ({ h with abandon := h.abandon.tick }).Lawful := by
  obtain ⟨hclock, hbyte, htimer, haddr, hcount⟩ := hl
  exact ⟨hclock, hbyte, by simpa using htimer, haddr, hcount⟩

theorem RightsLaw.reset (adr admSel : BitVec 2) : RightsLaw (State.resetWith adr admSel) := by
  have hrow (p : Port) : (State.resetWith adr admSel).rights[p] = RightsRow.reset admSel p := by simp [State.resetWith]
  refine ⟨⟨⟨admSel.toNat, admSel.isLt⟩, ?_⟩, fun p => ?_⟩
  · rw [hrow]
    simp [RightsRow.reset]
  · rw [hrow]
    exact Nat.le_of_ble_eq_true rfl

theorem BufferLaw.reset (adr admSel : BitVec 2) : BufferLaw (State.resetWith adr admSel) := fun p => by
  simp [State.resetWith, FrameBuffer.reset]

theorem ResponseLaw.reset (adr admSel : BitVec 2) : ResponseLaw (State.resetWith adr admSel) := fun p => by
  simp [State.resetWith, Response.reset]

/-! ### The laws -/

/-- Settles O9: every change of a port and its buffer that a row makes keeps R12 and R18 of that port. -/
theorem portLawKept : Obligations.PortLawKept := by
  unfold Obligations.PortLawKept
  refine keptByStep_of_host (fun _ _ h => h) (fun s h p => ?_) (fun adr admSel => (RelayLaw.reset adr admSel).1)
    fun heffect h p => (heffect.moves p).lawful (h p)
  rw [show s.tick.ports[p] = _ from congrArg Prod.fst (s.tick_portAndBuffer p)]
  exact (h p).tick

theorem decodeRght_quota {port rights quota : Byte} {q : Port} {row : RightsRow}
    (h : decodeRght port rights quota = some (q, row)) : row.quota ≤ 16 := by
  simp only [decodeRght, bind, Option.bind_eq_some_iff] at h
  obtain ⟨_, -, _, -, hrow⟩ := h
  split at hrow
  · cases hrow
    assumption
  · cases hrow

theorem RightsLaw.of_rights {s t : State} (h : RightsLaw s) (ht : t.rights = s.rights) : RightsLaw t := by
  unfold RightsLaw
  rw [ht]
  exact h

theorem RightsLaw.of_settings {s t : State} (h : RightsLaw s) (ht : t.settings = s.settings) : RightsLaw t :=
  h.of_rights (settings_eq_iff.1 ht).2.2.1

/-- Some port holds ADMIN after an RGHT, which is refused where it would take the last one (R150). -/
theorem RightsLaw.cmdRght {s : State} (h : RightsLaw s) (p : Port) (port rights quota : Byte) :
    RightsLaw (s.cmdRght p port rights quota) := by
  unfold State.cmdRght
  split
  · exact h
  · next q row hdec =>
    split
    · exact h
    · next hlast =>
      have hrow (r : Port) : ((s.onRights q fun _ => row).respond p .ok (opCode .rght)
          [portByte q, row.rights.byte, countByte row.quota, countByte (s.leaseCount q)]).rights[r] =
            if q = r then row else s.rights[r] := by
        rw [State.respond_rights, State.onRights_rights]
        by_cases hr : q = r
        · rw [if_pos hr, ← hr, tabUpd_self]
        · rw [if_neg hr, tabUpd_other _ _ _ _ hr]
      refine ⟨?_, fun r => ?_⟩
      · by_cases hadmin : row.rights.admin = true
        · exact ⟨q, by rw [hrow, if_pos rfl]; exact hadmin⟩
        · have helse : s.adminElsewhere q = true := by simpa [hadmin] using hlast
          obtain ⟨r, -, hr⟩ := List.any_eq_true.1 helse
          simp only [Bool.and_eq_true, decide_eq_true_eq] at hr
          exact ⟨r, by rw [hrow, if_neg (Ne.symm hr.1)]; exact hr.2⟩
      · rw [hrow]
        split
        · exact decodeRght_quota hdec
        · exact h.2 r

/-- The commands that edit the directory leave the rights. -/
theorem RightsLaw.perform {s : State} (h : RightsLaw s) (p : Port) (c : Command) : RightsLaw (s.perform p c) := by
  cases c with
  | rght => exact h.cmdRght ..
  | insr =>
    refine h.of_rights ?_
    simp only [State.perform, State.cmdInsr]
    repeat' split
    all_goals rfl
  | delr =>
    simp only [State.perform, State.cmdDelr]
    split
    · exact h
    · next e _ =>
      split
      · exact h
      · exact RightsLaw.of_settings (s := s.onEntry e fun x => { x with route := none }) h (by simp)
  | modr =>
    simp only [State.perform, State.cmdModr]
    split
    · exact h
    · next e x _ =>
      split
      · exact h
      · next r _ =>
        split
        · exact h
        · exact RightsLaw.of_settings (s := s.onEntry e fun y => { y with route := some (r.withAccess x) }) h (by simp)
  | dflt =>
    refine h.of_rights ?_
    simp only [State.perform, State.cmdDflt]
    split <;> rfl
  | _ => exact h.of_settings (by simp [State.perform])

/-- Settles O4: RGHT alone writes a row of rights, a frame buffer follows its port, and no command answers with more than 20
bytes. -/
theorem commandTablesKept : Obligations.CommandTablesKept := by
  unfold Obligations.CommandTablesKept
  refine ⟨?_, ?_, ?_⟩
  · exact keptByStep_of_settings (fun ht h => h.of_settings ht) (fun _ _ h => h) RightsLaw.reset fun s p c h => h.perform p c
  · refine keptByStep_of_host (fun _ _ h => h) (fun s h p => ?_) BufferLaw.reset
      fun heffect h p => (heffect.moves p).bufferFits (h p)
    have hctx : s.tick.ports[p].ctx = s.ports[p].ctx := by simp [State.tick]
    rw [hctx]
    exact h p
  · refine keptByStep_of_host (fun _ _ h => h) (fun _ h => h) ResponseLaw.reset fun heffect h p => ?_
    obtain hp | hp := heffect.responses p
    · rw [hp]
      exact h p
    · exact hp

end Sys2Proof.Machine
end

section
/-! SUPPORT. The tokens that an issue gives (R114), and what every row does to the Lease Table as single changes of its records
(R112 to R115), from which the laws of tokens and of remaining times follow. -/

namespace Sys2Proof.Machine

open Relation (ReflTransGen)

/-! ### Tokens (R114) -/

/-- The counter advanced by one, as a number. -/
theorem bumpToken_toNat (c : Byte) : (bumpToken c).toNat = if c.toNat = 255 then 1 else c.toNat + 1 := by
  have hlt : c.toNat < 256 := c.isLt
  unfold bumpToken
  by_cases hc : c = 255#8
  · rw [if_pos hc, hc]
    rfl
  · have hne : c.toNat ≠ 255 := fun h => hc (BitVec.eq_of_toNat_eq h)
    rw [if_neg hc, if_neg hne, BitVec.toNat_add, BitVec.toNat_ofNat]
    omega

/-- The counter advanced up to 15 times, as a number: it runs up to 255 and on from 1. -/
theorem bumpToken_iterate_toNat (c : Byte) {j : Nat} (hj : j ≤ 15) :
    (bumpToken^[j] c).toNat = if c.toNat + j ≤ 255 then c.toNat + j else c.toNat + j - 255 := by
  have hlt : c.toNat < 256 := c.isLt
  induction j with
  | zero => simp; omega
  | succ j ih =>
    rw [Function.iterate_succ_apply', bumpToken_toNat, ih (by omega)]
    split_ifs <;> omega

/-- Sixteen values from the counter on are different. -/
theorem bumpToken_iterate_injective (c : Byte) : Function.Injective fun j : Fin 16 => bumpToken^[j.val] c := by
  intro j k h
  have hlt : c.toNat < 256 := c.isLt
  have htoNat : (bumpToken^[j.val] c).toNat = (bumpToken^[k.val] c).toNat := congrArg BitVec.toNat h
  rw [bumpToken_iterate_toNat c (by omega), bumpToken_iterate_toNat c (by omega)] at htoNat
  ext
  split_ifs at htoNat <;> omega

/-- With a slot that holds no HELD record, the token that an issue gives is that of no HELD record (R114): sixteen HELD
records with the sixteen values tried would take every slot. -/
theorem State.tokenToIssue_fresh {s : State} {i : Slot} (hfree : ∀ l, s.leases[i] = some l → l.isHeld = false) :
    s.tokenToIssue ∉ s.heldTokens := by
  obtain ⟨k, hk, -, htried, hfound⟩ := nextToken_skips s.heldTokens 16 s.tokenCounter
  by_contra hused
  have hall : k = 16 := by
    by_contra hne
    exact hfound (by omega) hused
  have hholder (j : Fin 16) : ∃ (m : Slot) (l : Lease), s.leases[m] = some l ∧ l.isHeld = true ∧
      l.token = bumpToken^[j.val] s.tokenCounter :=
    State.mem_heldTokens.1 (htried j (hall ▸ j.isLt))
  choose slot lease hlease hheld htoken using hholder
  have hinj : Function.Injective slot := by
    intro j j' h
    have hsame : lease j = lease j' := by
      have := (hlease j).symm.trans ((congrArg (fun m : Slot => s.leases[m]) h).trans (hlease j'))
      exact Option.some.inj this
    exact bumpToken_iterate_injective s.tokenCounter (by simp only [← htoken, hsame])
  obtain ⟨j, rfl⟩ := Finite.injective_iff_surjective.1 hinj i
  exact Bool.noConfusion ((hheld j).symm.trans (hfree (lease j) (hlease j)))

/-- The token counter after an issue. -/
theorem State.tokenToIssue_ne_zero {s : State} (h : s.tokenCounter ≠ 0#8) : s.tokenToIssue ≠ 0#8 :=
  nextToken_ne_zero _ _ _ h

/-! ### Single changes of the Lease Table -/

/-- One change of the Lease Table: no other record, and the token counter by an issue alone. -/
inductive TableMove (s t : State) : Prop
  | same (hl : t.leases = s.leases) (hc : t.tokenCounter = s.tokenCounter)
  | free (i : Slot) (hl : t.leases = tabUpd s.leases i fun _ => none) (hc : t.tokenCounter = s.tokenCounter)
  | shift (e : EntryIx) (k : Nat) (hl : t.leases = tabMap s.leases (Option.map (Lease.moveUp e k)))
    (hc : t.tokenCounter = s.tokenCounter)
  | request (i : Slot) (l : Lease) (hp : l.isHeld = false) (hd : 1 ≤ l.requested ∧ l.requested ≤ 65535)
    (hl : t.leases = tabUpd s.leases i fun _ => some l) (hc : t.tokenCounter = s.tokenCounter)
  | issue (i : Slot) (l : Lease) (hfree : ∀ k, s.leases[i] = some k → k.isHeld = false)
    (hd : 1 ≤ l.requested ∧ l.requested ≤ 65535 ∨ ∃ k, s.leases[i] = some k ∧ k.requested = l.requested)
    (hl : t.leases = tabUpd s.leases i fun _ =>
      some { l with status := .held s.tokenToIssue (s.clip l.entry l.requested * Config.ticksPerMs) })
    (hc : t.tokenCounter = bumpToken s.tokenToIssue)
  | retime (i : Slot) (l : Lease) (d n : Nat) (hi : s.leases[i] = some l) (hheld : l.isHeld = true) (hd : 1 ≤ d ∧ d ≤ 65535)
    (hn : n = s.clip l.entry d * Config.ticksPerMs ∨ n = min l.remaining (d * Config.ticksPerMs))
    (hl : t.leases = tabUpd s.leases i fun _ => some { l with status := .held l.token n })
    (hc : t.tokenCounter = s.tokenCounter)

/-- One change of the Lease Table with the directory as it is. -/
structure LeaseMove (s t : State) : Prop where
  directory : t.directory = s.directory
  table : TableMove s t

/-- The Lease Table goes from `s` to `t` by such changes. -/
abbrev LeaseMoves : State → State → Prop := ReflTransGen LeaseMove

theorem LeaseMoves.trans {s t u : State} (h : LeaseMoves s t) (h' : LeaseMoves t u) : LeaseMoves s u :=
  ReflTransGen.trans h h'

theorem LeaseMoves.directory {s t : State} (h : LeaseMoves s t) : t.directory = s.directory := by
  induction h with
  | refl => rfl
  | tail _ hmove ih => exact hmove.directory.trans ih

/-- A change of no lease, token counter or entry. -/
theorem LeaseMoves.of_same {s t : State} (hd : t.directory = s.directory) (hl : t.leases = s.leases)
    (hc : t.tokenCounter = s.tokenCounter) : LeaseMoves s t :=
  .single ⟨hd, .same hl hc⟩

/-! ### What each change keeps of tokens -/

/-- The records of a table after one slot is written. -/
theorem tabUpd_some {v : Vector (Option Lease) 16} {i j : Slot} {o : Option Lease} {l : Lease} :
    (tabUpd v i fun _ => o)[j] = some l ↔ i = j ∧ o = some l ∨ i ≠ j ∧ v[j] = some l := by
  by_cases hij : i = j
  · subst hij
    rw [tabUpd_self]
    simp
  · rw [tabUpd_other _ _ _ _ hij]
    simp [hij]

/-- The counter stays and each HELD record was HELD in its slot under its token. -/
theorem TokenLaw.of_kept {s t : State} (h : TokenLaw s) (hc : t.tokenCounter = s.tokenCounter)
    (hl : ∀ (i : Slot) (l : Lease), t.leases[i] = some l → l.isHeld = true →
      ∃ k, s.leases[i] = some k ∧ k.isHeld = true ∧ k.token = l.token) : TokenLaw t := by
  obtain ⟨hcounter, hzero, hdistinct⟩ := h
  refine ⟨hc ▸ hcounter, fun i l hi hh => ?_, fun i j l k hi hj hlh hkh htok => ?_⟩
  · obtain ⟨k, hk, hkh, hkt⟩ := hl i l hi hh
    exact hkt ▸ hzero i k hk hkh
  · obtain ⟨l', hl', hlh', hlt⟩ := hl i l hi hlh
    obtain ⟨k', hk', hkh', hkt⟩ := hl j k hj hkh
    exact hdistinct i j l' k' hl' hk' hlh' hkh' (by rw [hlt, hkt, htok])

/-- The table with the records of `s` but for one slot, HELD there before by none, that has a new HELD record with the token
an issue gives. -/
theorem TokenLaw.of_issue {s t : State} (h : TokenLaw s) {i : Slot} {l : Lease}
    (hfree : ∀ k, s.leases[i] = some k → k.isHeld = false) (htok : l.token = s.tokenToIssue)
    (hl : t.leases = tabUpd s.leases i fun _ => some l) (hc : t.tokenCounter = bumpToken s.tokenToIssue) : TokenLaw t := by
  obtain ⟨hcounter, hzero, hdistinct⟩ := h
  have hnew := State.tokenToIssue_ne_zero hcounter
  have hrecord {j : Slot} {k : Lease} (hj : t.leases[j] = some k) : i = j ∧ k = l ∨ i ≠ j ∧ s.leases[j] = some k := by
    rw [hl, tabUpd_some] at hj
    exact hj.imp_left (And.imp_right fun h => (Option.some.inj h).symm)
  have hother {j : Slot} {k : Lease} (hk : s.leases[j] = some k) (hkh : k.isHeld = true) : l.token ≠ k.token := by
    rw [htok]
    intro heq
    exact State.tokenToIssue_fresh hfree (State.mem_heldTokens.2 ⟨j, k, hk, hkh, heq.symm⟩)
  refine ⟨hc ▸ bumpToken_ne_zero _ hnew, fun j k hj hh => ?_, fun j j' k k' hj hj' hh hh' heq => ?_⟩
  · obtain ⟨-, rfl⟩ | ⟨-, hk⟩ := hrecord hj
    · exact htok ▸ hnew
    · exact hzero j k hk hh
  · obtain ⟨rfl, rfl⟩ | ⟨-, hk⟩ := hrecord hj <;> obtain ⟨rfl, rfl⟩ | ⟨-, hk'⟩ := hrecord hj'
    · rfl
    · exact absurd heq (hother hk' hh')
    · exact absurd heq.symm (hother hk hh)
    · exact hdistinct j j' k k' hk hk' hh hh' heq

/-- Every change keeps R114. -/
theorem TableMove.tokenLaw {s t : State} (h : TableMove s t) (hs : TokenLaw s) : TokenLaw t := by
  cases h with
  | same hl hc => exact hs.of_kept hc fun i l hi hh => ⟨l, hl ▸ hi, hh, rfl⟩
  | free i hl hc =>
    refine hs.of_kept hc fun j l hj hh => ?_
    rw [hl, tabUpd_some] at hj
    obtain ⟨-, h⟩ | ⟨-, h⟩ := hj
    · cases h
    · exact ⟨l, h, hh, rfl⟩
  | shift e k hl hc =>
    refine hs.of_kept hc fun j l hj hh => ?_
    rw [hl, Fin.getElem_fin, tabMap_getElem, Option.map_eq_some_iff] at hj
    obtain ⟨y, hy, rfl⟩ := hj
    obtain ⟨-, -, -, -, hheld, htoken, -⟩ := y.moveUp_same e k
    exact ⟨y, hy, hheld ▸ hh, htoken.symm⟩
  | request i l hp hd hl hc =>
    refine hs.of_kept hc fun j k hj hh => ?_
    rw [hl, tabUpd_some] at hj
    obtain ⟨-, h⟩ | ⟨-, h⟩ := hj
    · cases h
      simp [hp] at hh
    · exact ⟨k, h, hh, rfl⟩
  | issue i l hfree hd hl hc => exact hs.of_issue hfree rfl hl hc
  | retime i l d n hi hheld hd hn hl hc =>
    refine hs.of_kept hc fun j k hj hh => ?_
    rw [hl, tabUpd_some] at hj
    obtain ⟨rfl, h⟩ | ⟨-, h⟩ := hj
    · cases h
      exact ⟨l, hi, hheld, rfl⟩
    · exact ⟨k, h, hh, rfl⟩

theorem LeaseMoves.tokenLaw {s t : State} (h : LeaseMoves s t) (hs : TokenLaw s) : TokenLaw t := by
  induction h with
  | refl => exact hs
  | tail _ hmove ih => exact hmove.table.tokenLaw ih

/-! ### What each change keeps of remaining times -/

/-- Every INSTALLED entry allows a lease of 1 to 65,535 ms (R22). -/
def LeasesCapped (s : State) : Prop := ∀ e r, s.route e = some r → 1 ≤ r.maxLease ∧ r.maxLease ≤ 65535

theorem DirectoryLaw.leasesCapped {s : State} (h : DirectoryLaw s) : LeasesCapped s := by
  intro e r hr
  obtain ⟨-, -, -, hmin, hmax, -⟩ := h.1 e r hr
  exact ⟨hmin, hmax⟩

theorem LeasesCapped.of_directory {s t : State} (h : LeasesCapped s) (ht : t.directory = s.directory) : LeasesCapped t := by
  intro e r hr
  refine h e r ?_
  rw [← hr, State.route, State.route, ht]

/-- A duration of 1 to 65,535 ms, clipped, is one. -/
theorem LeasesCapped.clip {s : State} (h : LeasesCapped s) (e : EntryIx) {d : Nat} (hd : 1 ≤ d ∧ d ≤ 65535) :
    1 ≤ s.clip e d ∧ s.clip e d ≤ 65535 := by
  unfold State.clip State.maxLeaseOr
  split
  · next r hr =>
    have := h e r hr
    omega
  · omega

/-- What R112 and R115 say of one record. -/
def Lease.Timed (l : Lease) : Prop :=
  1 ≤ l.requested ∧ l.requested ≤ 65535 ∧ (l.isHeld = true → 1 ≤ l.remaining ∧ l.remaining ≤ 65535 * Config.ticksPerMs)

/-- A lease of `d` ms has at least a tick left and at most 65,535 ms. -/
theorem ticks_of_ms {d : Nat} (hd : 1 ≤ d ∧ d ≤ 65535) :
    1 ≤ d * Config.ticksPerMs ∧ d * Config.ticksPerMs ≤ 65535 * Config.ticksPerMs := by
  unfold Config.ticksPerMs
  omega

/-- Every change keeps R112 and R115, where every entry allows a lease of at least 1 ms. -/
theorem TableMove.remainingLaw {s t : State} (h : TableMove s t) (hcap : LeasesCapped s) (hs : RemainingLaw s) :
    RemainingLaw t := by
  intro j k hj
  have hold {k : Lease} (hk : s.leases[j] = some k) : k.Timed := hs j k hk
  change k.Timed
  cases h with
  | same hl hc => exact hold (hl ▸ hj)
  | free i hl hc =>
    rw [hl, tabUpd_some] at hj
    obtain ⟨-, h⟩ | ⟨-, h⟩ := hj
    · cases h
    · exact hold h
  | shift e n hl hc =>
    rw [hl, Fin.getElem_fin, tabMap_getElem, Option.map_eq_some_iff] at hj
    obtain ⟨y, hy, rfl⟩ := hj
    obtain ⟨-, -, -, hreq, hheld, -, hrem⟩ := y.moveUp_same e n
    unfold Lease.Timed
    rw [hreq, hheld, hrem]
    exact hold hy
  | request i l hp hd hl hc =>
    rw [hl, tabUpd_some] at hj
    obtain ⟨-, h⟩ | ⟨-, h⟩ := hj
    · cases h
      exact ⟨hd.1, hd.2, fun hh => by simp [hp] at hh⟩
    · exact hold h
  | issue i l hfree hd hl hc =>
    rw [hl, tabUpd_some] at hj
    obtain ⟨rfl, h⟩ | ⟨-, h⟩ := hj
    · cases h
      have hreq : 1 ≤ l.requested ∧ l.requested ≤ 65535 := by
        obtain hd | ⟨k, hk, hkr⟩ := hd
        · exact hd
        · obtain ⟨hmin, hmax, -⟩ := hold hk
          exact hkr ▸ ⟨hmin, hmax⟩
      exact ⟨hreq.1, hreq.2, fun _ => ticks_of_ms (hcap.clip l.entry hreq)⟩
    · exact hold h
  | retime i l d n hi hheld hd hn hl hc =>
    rw [hl, tabUpd_some] at hj
    obtain ⟨rfl, h⟩ | ⟨-, h⟩ := hj
    · cases h
      obtain ⟨hmin, hmax, htime⟩ := hold hi
      refine ⟨hmin, hmax, fun _ => ?_⟩
      obtain rfl | rfl := hn
      · exact ticks_of_ms (hcap.clip l.entry hd)
      · have hleft := htime hheld
        have hgiven := ticks_of_ms hd
        change 1 ≤ min l.remaining _ ∧ min l.remaining _ ≤ _
        omega
    · exact hold h

theorem LeaseMoves.remainingLaw {s t : State} (h : LeaseMoves s t) (hcap : LeasesCapped s) (hs : RemainingLaw s) :
    RemainingLaw t := by
  induction h with
  | refl => exact hs
  | tail hmoves hmove ih => exact hmove.table.remainingLaw (hcap.of_directory (LeaseMoves.directory hmoves)) ih

/-! ### The operations on the Lease Table -/

section
variable (s : State)

theorem LeaseMoves.post (p : Port) (k : NoticeKind) (e : Option EntryIx) (m : Option Seg) (tok : Byte) :
    LeaseMoves s (s.post p k e m tok) := .of_same rfl rfl rfl

theorem LeaseMoves.setFree (i : Slot) : LeaseMoves s (s.setLease i none) := .single ⟨rfl, .free i rfl rfl⟩

theorem LeaseMoves.closeGap (e : EntryIx) (k : Nat) : LeaseMoves s (s.closeGap e k) := .single ⟨rfl, .shift e k rfl rfl⟩

theorem LeaseMoves.freeRecord (x : Slot × Lease) : LeaseMoves s (s.freeRecord x) := by
  unfold State.freeRecord
  dsimp only
  split
  · exact .setFree s x.1
  · exact (LeaseMoves.setFree s x.1).trans (.closeGap _ _ _)

/-- The oldest request becomes HELD, and those behind it move forward (R122). -/
theorem LeaseMoves.promote (e : EntryIx) : LeaseMoves s (s.promote e) := by
  cases hp : s.pendingAt e 1 with
  | none => rw [State.promote_none hp]
  | some x =>
    obtain ⟨i, l⟩ := x
    obtain ⟨hi, rfl, hreq, -⟩ := State.pendingAt_some hp
    rw [State.promote_some hp]
    have hissue : LeaseMoves s ((s.setLease i
        (some { l with status := .held s.tokenToIssue (s.clip l.entry l.requested * Config.ticksPerMs) })).afterIssue
          s.tokenToIssue) := by
      refine .single ⟨rfl, .issue i l (fun k hk => ?_) (.inr ⟨l, hi, rfl⟩) rfl rfl⟩
      rw [hi] at hk
      cases hk
      exact hreq
    exact (hissue.trans (.closeGap _ _ _)).trans (.post _ _ _ _ _ _)

theorem LeaseMoves.freeAndPromote (x : Slot × Lease) : LeaseMoves s (s.freeAndPromote x) :=
  (LeaseMoves.freeRecord s x).trans (.promote _ _)

theorem LeaseMoves.expireLease (x : Slot × Lease) : LeaseMoves s (s.expireLease x) :=
  ((LeaseMoves.freeRecord s x).trans (.post _ _ _ _ _ _)).trans (.promote _ _)

theorem LeaseMoves.revoke (x : Slot × Lease) (c : RevokeCause) (m : Option Seg) : LeaseMoves s (s.revoke x c m) :=
  (LeaseMoves.freeRecord s x).trans (.post _ _ _ _ _ _)

theorem LeaseMoves.cancelPending (e : EntryIx) (c : RevokeCause) (m : Option Seg) (n : Nat) :
    LeaseMoves s (State.cancelPending e c m n s) := by
  induction n generalizing s with
  | zero => exact .refl
  | succ n ih =>
    unfold State.cancelPending
    split
    · exact (LeaseMoves.revoke s _ c m).trans (ih _)
    · exact .refl

theorem LeaseMoves.clearEntry (e : EntryIx) (c d : RevokeCause) (m : Option Seg) : LeaseMoves s (s.clearEntry e c d m) := by
  unfold State.clearEntry State.revokeHeld
  split
  · exact (LeaseMoves.revoke s _ c m).trans (.cancelPending _ e d m _)
  · exact .cancelPending s e d m _

theorem LeaseMoves.cancelUnseen (e : EntryIx) (vis : PortMask) (m : Option Seg) (n : Nat) :
    LeaseMoves s (State.cancelUnseen e vis m n s) := by
  induction n generalizing s with
  | zero => exact .refl
  | succ n ih =>
    unfold State.cancelUnseen
    split
    · exact (LeaseMoves.revoke s _ _ m).trans (ih _)
    · exact .refl

theorem LeaseMoves.loseVisibility (e : EntryIx) (vis : PortMask) (m : Option Seg) :
    LeaseMoves s (s.loseVisibility e vis m) := by
  unfold State.loseVisibility
  split
  · split
    · exact .cancelUnseen s e vis m _
    · exact ((LeaseMoves.revoke s _ _ m).trans (.cancelUnseen _ e vis m _)).trans (.promote _ e)
  · exact .cancelUnseen s e vis m _

/-- The HELD record cut to a max lease keeps its token (R128). -/
theorem Lease.cut_held {l : Lease} (h : l.isHeld = true) (ms : Nat) :
    l.cut ms = { l with status := .held l.token (min l.remaining (ms * Config.ticksPerMs)) } := by
  obtain ⟨p, e, g, d, st⟩ := l
  cases st with
  | held t n => rfl
  | pending k => cases h

theorem LeaseMoves.cutHeld (e : EntryIx) {ms : Nat} (hms : 1 ≤ ms ∧ ms ≤ 65535) : LeaseMoves s (s.cutHeld e ms) := by
  unfold State.cutHeld
  split
  · next i l hx =>
    obtain ⟨hi, -, hheld⟩ := State.heldOn_some hx
    rw [Lease.cut_held hheld]
    exact .single ⟨rfl, .retime i l ms _ hi hheld hms (.inr rfl) rfl rfl⟩
  · exact .refl

theorem LeaseMoves.freeAllOwn (q : Port) : LeaseMoves s (s.freeAllOwn q) := by
  unfold State.freeAllOwn
  generalize allEntries = es
  induction es generalizing s with
  | nil => exact .refl
  | cons e es ih =>
    have hown : LeaseMoves s (s.freeOwn q e) := by
      unfold State.freeOwn
      split
      · split
        · exact .freeAndPromote s _
        · exact .freeRecord s _
      · exact .refl
    exact hown.trans (ih _)

end

/-! ### Commands -/

/-- What a row does to the Lease Table, under the directory that it leaves. -/
def LeaseEffect (s t : State) : Prop :=
  ∃ u : State, u.leases = s.leases ∧ u.tokenCounter = s.tokenCounter ∧ LeaseMoves u t

section
variable {s t : State}

theorem LeaseMoves.effect (h : LeaseMoves s t) : LeaseEffect s t := ⟨s, rfl, rfl, h⟩

/-- A change of neither leases nor the token counter. -/
theorem LeaseEffect.of_same (hl : t.leases = s.leases) (hc : t.tokenCounter = s.tokenCounter) : LeaseEffect s t :=
  ⟨t, hl, hc, .refl⟩

/-- A response written after changes of the Lease Table. -/
theorem LeaseMoves.answer (h : LeaseMoves s t) (p : Port) (st : Status) (echo : Byte) (payload : List Byte) :
    LeaseMoves s (t.respond p st echo payload) :=
  h.trans (.of_same rfl rfl rfl)

theorem BusEffect.leases (h : BusEffect s t) : t.leases = s.leases := congrArg (fun r => r.2.1) h.records
theorem BusEffect.tokenCounter (h : BusEffect s t) : t.tokenCounter = s.tokenCounter := congrArg (fun r => r.2.2.1) h.records

end

section
variable (s : State) (p : Port)

theorem LeaseMoves.answered (st : Status) (echo : Byte) (payload : List Byte) :
    LeaseMoves s (s.respond p st echo payload) := .of_same rfl rfl rfl

theorem LeaseEffect.cmdDelr (index : Byte) : LeaseEffect s (s.cmdDelr p index) := by
  unfold State.cmdDelr
  split
  · exact .of_same rfl rfl
  · next e _ =>
    split
    · exact .of_same rfl rfl
    · next r _ =>
      exact ⟨s.onEntry e fun x => { x with route := none }, rfl, rfl,
        (LeaseMoves.clearEntry _ e _ _ (some r.seg)).answer p _ _ _⟩

theorem LeaseEffect.cmdModr (index vis wp mode : Byte) (ml : Half) : LeaseEffect s (s.cmdModr p index vis wp mode ml) := by
  unfold State.cmdModr
  split
  · exact .of_same rfl rfl
  · next e x hdec =>
    split
    · exact .of_same rfl rfl
    · next r _ =>
      split
      · exact .of_same rfl rfl
      · have hms : 1 ≤ x.maxLease ∧ x.maxLease ≤ 65535 := decodeDuration_range (decodeModr_some hdec).2
        exact ⟨s.onEntry e fun y => { y with route := some (r.withAccess x) }, rfl, rfl,
          ((LeaseMoves.loseVisibility _ e x.vis (some r.seg)).trans (.cutHeld _ e hms)).answer p _ _ _⟩

theorem decodeLacq_duration {index : Byte} {duration : Half} {wait : Byte} {e : EntryIx} {d : Nat} {w : Bool}
    (h : decodeLacq index duration wait = some (e, d, w)) : 1 ≤ d ∧ d ≤ 65535 := by
  simp only [decodeLacq, bind, Option.bind_eq_some_iff] at h
  obtain ⟨_, -, d', hd, _, -, hx⟩ := h
  cases hx
  exact decodeDuration_range hd

theorem State.freeSlot?_some {i : Slot} (h : s.freeSlot? = some i) : s.leases[i] = none := by
  simpa using List.find?_some h

/-- LACQ makes a HELD record (R118). -/
theorem LeaseMoves.grantLease (e : EntryIx) {i : Slot} {d : Nat} (hfree : s.leases[i] = none) (hd : 1 ≤ d ∧ d ≤ 65535) :
    LeaseMoves s ((s.makeLease i p e d (.held s.tokenToIssue (s.clip e d * Config.ticksPerMs))).afterIssue s.tokenToIssue) := by
  refine .single ⟨rfl, .issue i { port := p, entry := e, gen := s.directory[e].gen, requested := d, status := .pending 0 }
    (fun k hk => ?_) (.inl hd) rfl rfl⟩
  rw [hfree] at hk
  cases hk

/-- LACQ makes a PENDING record (R117). -/
theorem LeaseMoves.makeRequest (e : EntryIx) (k : Nat) {i : Slot} {d : Nat} (hd : 1 ≤ d ∧ d ≤ 65535) :
    LeaseMoves s (s.makeLease i p e d (.pending k)) :=
  .single ⟨rfl, .request i { port := p, entry := e, gen := s.directory[e].gen, requested := d, status := .pending k }
    rfl hd rfl rfl⟩

theorem LeaseMoves.cmdLacq (index : Byte) (duration : Half) (wait : Byte) :
    LeaseMoves s (s.cmdLacq p index duration wait) := by
  unfold State.cmdLacq
  split
  · exact .answered s p _ _ _
  · next e d w hdec =>
    have hd := decodeLacq_duration hdec
    split
    · exact .answered s p _ _ _
    · split
      · exact .answered s p _ _ _
      · split
        · exact .answered s p _ _ _
        · split
          · exact .answered s p _ _ _
          · split
            · exact .answered s p _ _ _
            · next i hi =>
              have hfree := s.freeSlot?_some hi
              split
              · exact (LeaseMoves.grantLease s p e hfree hd).answer p _ _ _
              · split
                · exact (LeaseMoves.makeRequest s p e _ hd).answer p _ _ _
                · exact .answered s p _ _ _

theorem decodeLren_duration {index : Byte} {duration : Half} {e : EntryIx} {d : Nat}
    (h : decodeLren index duration = some (e, d)) : 1 ≤ d ∧ d ≤ 65535 := by
  simp only [decodeLren, bind, Option.bind_eq_some_iff] at h
  obtain ⟨_, -, d', hd, hx⟩ := h
  cases hx
  exact decodeDuration_range hd

theorem LeaseMoves.cmdLren (index token : Byte) (duration : Half) : LeaseMoves s (s.cmdLren p index token duration) := by
  unfold State.cmdLren
  split
  · exact .answered s p _ _ _
  · next e d hdec =>
    split
    · exact .answered s p _ _ _
    · next i l hx =>
      obtain ⟨hi, rfl, -⟩ := State.recordOf_some hx
      split
      · next hok =>
        have hrenewed : LeaseMoves s (s.setLease i
            (some { l with status := .held l.token (s.clip l.entry d * Config.ticksPerMs) })) :=
          .single ⟨rfl, .retime i l d _ hi hok.1 (decodeLren_duration hdec) (.inl rfl) rfl rfl⟩
        exact hrenewed.answer p _ _ _
      · exact .answered s p _ _ _

theorem LeaseMoves.cmdLrel (index token : Byte) : LeaseMoves s (s.cmdLrel p index token) := by
  unfold State.cmdLrel
  split
  · exact .answered s p _ _ _
  · split
    · unfold State.cancelLease
      split
      · exact .answered s p _ _ _
      · split
        · exact .answered s p _ _ _
        · exact (LeaseMoves.freeRecord s _).answer p _ _ _
    · unfold State.releaseLease
      split
      · exact .answered s p _ _ _
      · split
        · exact (LeaseMoves.freeAndPromote s _).answer p _ _ _
        · exact .answered s p _ _ _

theorem LeaseMoves.cmdLrev (index : Byte) : LeaseMoves s (s.cmdLrev p index) := by
  unfold State.cmdLrev
  split
  · exact .answered s p _ _ _
  · split
    · exact .answered s p _ _ _
    · split
      · exact .answered s p _ _ _
      · exact (LeaseMoves.clearEntry s _ _ _ _).answer p _ _ _

theorem LeaseEffect.cmdPrst (port : Byte) : LeaseEffect s (s.cmdPrst p port) := by
  unfold State.cmdPrst
  split
  · exact .of_same rfl rfl
  · next q _ =>
    have hfirst := BusEffect.portReset s p q
    refine ⟨_, hfirst.leases, hfirst.tokenCounter, LeaseMoves.answer ?_ p _ _ _⟩
    have hfreed := LeaseMoves.freeAllOwn (if q = p then s.onPort q HostPort.clearRefusal else s.resetContext q) q
    unfold State.portReset
    dsimp only
    generalize (if q = p then s.onPort q HostPort.clearRefusal else s.resetContext q).freeAllOwn q = u at hfreed
    exact hfreed.trans (.of_same rfl rfl rfl)

/-- The commands that leave the Lease Table alone. -/
theorem LeaseEffect.cmdSrcv (segment : Byte) : LeaseEffect s (s.cmdSrcv p segment) := by
  unfold State.cmdSrcv
  split
  · exact .of_same rfl rfl
  · next m _ =>
    have hforce := BusEffect.forceRecovery s m
    split
    · exact .of_same rfl rfl
    · exact .of_same rfl rfl
    · exact .of_same hforce.leases hforce.tokenCounter

/-- Every command from its arguments step on. -/
theorem LeaseEffect.perform (c : Command) : LeaseEffect s (s.perform p c) := by
  cases c with
  | delr => exact .cmdDelr ..
  | modr => exact .cmdModr ..
  | lacq => exact (LeaseMoves.cmdLacq ..).effect
  | lren => exact (LeaseMoves.cmdLren ..).effect
  | lrel => exact (LeaseMoves.cmdLrel ..).effect
  | lrev => exact (LeaseMoves.cmdLrev ..).effect
  | prst => exact .cmdPrst ..
  | srcv => exact .cmdSrcv ..
  | nfet => exact (LeaseMoves.answer (s := s) (t := s.onNotices p NoticeQueue.fetch) (.of_same rfl rfl rfl) p _ _ _).effect
  | idnt => exact (LeaseMoves.answered s p _ _ _).effect
  | _ =>
    simp only [State.perform, State.cmdInsr, State.cmdRdrt, State.cmdDflt, State.cmdLqry, State.cmdScfg, State.cmdSsta,
      State.cmdPsta, State.cmdRght]
    repeat' split
    all_goals exact .of_same rfl rfl

end

/-- Every row but a device reset. -/
theorem RowEffect.lease {s t : State} (h : RowEffect s t) :
    LeaseEffect s t ∨ ∃ adr admSel, t = { State.resetWith adr admSel with pending := s.pending } := by
  cases h with
  | bus h => exact .inl (.of_same h.leases h.tokenCounter)
  | command p c u hu ht =>
    obtain ⟨v, hl, hc, hmoves⟩ := LeaseEffect.perform u p c
    exact .inl ⟨v, hl.trans hu.leases, hc.trans hu.tokenCounter, ht ▸ hmoves⟩
  | answered p st echo u hu ht => exact .inl (ht ▸ .of_same hu.leases hu.tokenCounter)
  | expiry e x hx ht => exact .inl (ht ▸ (LeaseMoves.expireLease s x).effect)
  | reset adr admSel ht => exact .inr ⟨adr, admSel, ht⟩

end Sys2Proof.Machine
end

section
/-! SUPPORT. O6 and O8 settled: the law of tokens (R114) and that of remaining times (R112, R115). -/

namespace Sys2Proof.Machine

theorem State.resetWith_leases (adr admSel : BitVec 2) (i : Slot) : (State.resetWith adr admSel).leases[i] = none := by
  simp [State.resetWith]

theorem TokenLaw.reset (adr admSel : BitVec 2) : TokenLaw (State.resetWith adr admSel) := by
  have hnone {i : Slot} {l : Lease} (h : (State.resetWith adr admSel).leases[i] = some l) : False := by
    rw [State.resetWith_leases] at h
    cases h
  exact ⟨by simp [State.resetWith], fun i l h => (hnone h).elim, fun i j l k h => (hnone h).elim⟩

theorem RemainingLaw.reset (adr admSel : BitVec 2) : RemainingLaw (State.resetWith adr admSel) := by
  intro i l h
  rw [State.resetWith_leases] at h
  cases h

/-- A tick takes a HELD record one tick further, and nothing of it or of a PENDING record else. -/
theorem Lease.tick_same (l : Lease) :
    l.tick.port = l.port ∧ l.tick.entry = l.entry ∧ l.tick.gen = l.gen ∧ l.tick.requested = l.requested ∧
      l.tick.isHeld = l.isHeld ∧ l.tick.token = l.token ∧ l.tick.order = l.order ∧ l.tick.remaining = l.remaining - 1 := by
  obtain ⟨p, e, g, d, st⟩ := l
  cases st <;> exact ⟨rfl, rfl, rfl, rfl, rfl, rfl, rfl, rfl⟩

theorem State.tick_leases (s : State) (i : Slot) : s.tick.leases[i] = s.leases[i].map Lease.tick := by
  simp [State.tick]

theorem State.tick_leases_some {s : State} {i : Slot} {l : Lease} :
    s.tick.leases[i] = some l ↔ ∃ k, s.leases[i] = some k ∧ k.tick = l := by
  rw [State.tick_leases, Option.map_eq_some_iff]

theorem TokenLaw.of_leases {s t : State} (h : TokenLaw s) (hl : t.leases = s.leases) (hc : t.tokenCounter = s.tokenCounter) :
    TokenLaw t :=
  h.of_kept hc fun _ l hi hh => ⟨l, hl ▸ hi, hh, rfl⟩

/-- Settles O6: the Lease Table changes by single changes of its records; the one that makes a HELD record gives it the token of
an issue, which no HELD record has while a slot is left for it. -/
theorem tokenLawKept : Obligations.TokenLawKept := by
  unfold Obligations.TokenLawKept
  refine keptByStep_of_exec (fun s rest h => h) (fun s h => ?_) fun i s h => (exec_rowEffect i s).mono fun t ht => ?_
  · refine h.of_kept rfl fun i l hi hh => ?_
    obtain ⟨k, hk, rfl⟩ := State.tick_leases_some.1 hi
    obtain ⟨-, -, -, -, hheld, htoken, -⟩ := k.tick_same
    exact ⟨k, hk, hheld ▸ hh, htoken.symm⟩
  · obtain ⟨u, hl, hc, hmoves⟩ | ⟨adr, admSel, rfl⟩ := ht.lease
    · exact hmoves.tokenLaw (h.of_leases hl hc)
    · exact TokenLaw.reset adr admSel

/-- A tick that passes finds no lease due, so every live lease has at least two ticks left before it. -/
theorem RemainingLaw.tick {s : State} (h : RemainingLaw s) (hdue : s.dueExpiries = []) : RemainingLaw s.tick := by
  intro i l hl
  obtain ⟨k, hk, rfl⟩ := State.tick_leases_some.1 hl
  obtain ⟨-, -, -, hreq, hheld, -, -, hrem⟩ := k.tick_same
  obtain ⟨hmin, hmax, htime⟩ := h i k hk
  rw [hreq, hheld, hrem]
  refine ⟨hmin, hmax, fun hh => ?_⟩
  have hnot : k.due = false := by
    by_contra hk'
    have hmem : Instr.leaseExpiry k.entry ∈ s.dueExpiries := by
      unfold State.dueExpiries
      simp only [List.append_assoc, List.mem_append, List.mem_filterMap]
      exact .inl ⟨i, List.mem_finRange i, by simp [State.leaseDue, hk, hk']⟩
    rw [hdue] at hmem
    cases hmem
  have hlong : ¬ k.remaining ≤ 1 := by
    obtain ⟨p, e, g, d, st⟩ := k
    cases st with
    | held t n => simpa [Lease.due, Lease.remaining] using hnot
    | pending o => cases hh
  obtain ⟨-, hle⟩ := htime hh
  omega

/-- Settles O8: a lease is given at least one millisecond and at most its entry's max lease, and a tick passes only when no
lease is due (log entry 3). -/
theorem remainingLawKept : Obligations.RemainingLawKept := by
  unfold Obligations.RemainingLawKept
  intro s t hdir hs hstep
  have hcap : LeasesCapped t := (directoryLawKept s t hdir hstep).leasesCapped
  have hexec {i : Instr} {u : State} (hu : RemainingLaw u) (hi : exec i u = .next t) : RemainingLaw t := by
    obtain ⟨v, hl, hc, hmoves⟩ | ⟨adr, admSel, rfl⟩ := (exec_rowEffect i u t hi).lease
    · refine hmoves.remainingLaw (hcap.of_directory hmoves.directory.symm) fun i l hil => hu i l ?_
      rw [← hl]
      exact hil
    · exact RemainingLaw.reset adr admSel
  unfold step at hstep
  split at hstep
  · next rest _ => exact hexec (u := { s with pending := rest }) hs hstep
  · unfold idle at hstep
    split at hstep
    · exact hexec hs hstep
    · next hdue =>
      cases hstep
      exact hs.tick hdue

end Sys2Proof.Machine
end

section
/-! SUPPORT. The law of the Lease Table (R113), entry by entry: the list of requests on an entry, the holder before them, and
what freeing, promoting and renewing a record do to both. -/

namespace Sys2Proof.Machine

/-! ### The law, entry by entry -/

/-- The record names an INSTALLED entry of its generation that its port sees (R113). -/
def State.Live (s : State) (l : Lease) : Prop :=
  s.directory[l.entry].gen = l.gen ∧ ∃ r, s.route l.entry = some r ∧ hasPort r.vis l.port = true

theorem leaseLaw_iff {s : State} : LeaseLaw s ↔
    (∀ e, EntryRecords s.leases e) ∧ ∀ (i : Slot) (l : Lease), s.leases[i] = some l → s.Live l := by
  refine ⟨fun h => ⟨h.entryRecords, h.2.2⟩, fun ⟨hentries, hlive⟩ => ⟨fun i j l k hl hk he => ?_, fun i l hl hp => ?_, hlive⟩⟩
  · exact (hentries k.entry).unique i j l k hl hk he rfl
  · have h := hentries l.entry
    obtain ⟨h₁, h₃⟩ := h.place i l hl rfl hp
    exact ⟨h₁, h₃, h.behindHolder i l hl rfl hp, h.gapless i l hl rfl hp⟩

/-- The law of one entry reads its records alone. -/
theorem EntryRecords.congr {v w : Vector (Option Lease) 16} {e : EntryIx} (h : EntryRecords v e)
    (hw : ∀ (i : Slot) (l : Lease), l.entry = e → (w[i] = some l ↔ v[i] = some l)) : EntryRecords w e where
  unique i j l k hl hk hle hke := h.unique i j l k ((hw i l hle).1 hl) ((hw j k hke).1 hk) hle hke
  place i l hl hle := h.place i l ((hw i l hle).1 hl) hle
  behindHolder i l hl hle hp := by
    obtain ⟨j, k, hk, hke, hkh⟩ := h.behindHolder i l ((hw i l hle).1 hl) hle hp
    exact ⟨j, k, (hw j k hke).2 hk, hke, hkh⟩
  gapless i l hl hle hp hne := by
    obtain ⟨j, k, hk, hke, hko⟩ := h.gapless i l ((hw i l hle).1 hl) hle hp hne
    exact ⟨j, k, (hw j k hke).2 hk, hke, hko⟩

theorem EntryRecords.of_none {v : Vector (Option Lease) 16} {e : EntryIx}
    (h : ∀ (i : Slot) (l : Lease), v[i] = some l → l.entry ≠ e) : EntryRecords v e where
  unique i _ l _ hl _ he := absurd he (h i l hl)
  place i l hl he := absurd he (h i l hl)
  behindHolder i l hl he := absurd he (h i l hl)
  gapless i l hl he := absurd he (h i l hl)

/-! ### Requests and holder -/

/-- The requests on the entry `e` stand in the places 1 to `n` without a gap, one for a port. -/
structure Requests (v : Vector (Option Lease) 16) (e : EntryIx) (n : Nat) : Prop where
  place : ∀ (i : Slot) (l : Lease), v[i] = some l → l.entry = e → l.isHeld = false → 1 ≤ l.order ∧ l.order ≤ n
  gapless : ∀ (i : Slot) (l : Lease), v[i] = some l → l.entry = e → l.isHeld = false → l.order ≠ 1 →
    ∃ (j : Slot) (k : Lease), v[j] = some k ∧ k.entry = e ∧ k.isHeld = false ∧ k.order + 1 = l.order
  unique : ∀ (i j : Slot) (l k : Lease), v[i] = some l → v[j] = some k → l.entry = e → k.entry = e →
    l.isHeld = false → k.isHeld = false → l.port = k.port ∨ l.order = k.order → i = j

/-- At most one HELD record on the entry `e`, of a port without a request there, and none without it. -/
structure Holder (v : Vector (Option Lease) 16) (e : EntryIx) : Prop where
  single : ∀ (i j : Slot) (l k : Lease), v[i] = some l → v[j] = some k → l.entry = e → k.entry = e →
    l.isHeld = true → k.isHeld = true → i = j
  apart : ∀ (i j : Slot) (l k : Lease), v[i] = some l → v[j] = some k → l.entry = e → k.entry = e →
    l.isHeld = true → k.isHeld = false → l.port ≠ k.port
  behind : ∀ (i : Slot) (l : Lease), v[i] = some l → l.entry = e → l.isHeld = false →
    ∃ (j : Slot) (k : Lease), v[j] = some k ∧ k.entry = e ∧ k.isHeld = true

theorem EntryRecords.requests {v : Vector (Option Lease) 16} {e : EntryIx} (h : EntryRecords v e) : Requests v e 3 where
  place := h.place
  gapless := h.gapless
  unique i j l k hl hk hle hke hlp hkp hor := h.unique i j l k hl hk hle hke (.inr (hor.imp_right fun ho => ⟨hlp, hkp, ho⟩))

theorem EntryRecords.holder {v : Vector (Option Lease) 16} {e : EntryIx} (h : EntryRecords v e) : Holder v e where
  single i j l k hl hk hle hke hlh hkh := h.unique i j l k hl hk hle hke (.inl ⟨hlh, hkh⟩)
  apart i j l k hl hk hle hke hlh hkp hport := by
    obtain rfl := h.unique i j l k hl hk hle hke (.inr (.inl hport))
    rw [hl] at hk
    cases hk
    exact Bool.noConfusion (hlh.symm.trans hkp)
  behind := h.behindHolder

theorem EntryRecords.of_parts {v : Vector (Option Lease) 16} {e : EntryIx} (hr : Requests v e 3) (hh : Holder v e) :
    EntryRecords v e where
  place := hr.place
  gapless := hr.gapless
  behindHolder := hh.behind
  unique i j l k hl hk hle hke hor := by
    cases hlh : l.isHeld <;> cases hkh : k.isHeld
    · exact hr.unique i j l k hl hk hle hke hlh hkh (by simpa [hlh, hkh] using hor)
    · exact absurd (by simpa [hlh, hkh] using hor) (hh.apart j i k l hk hl hke hle hkh hlh).symm
    · exact absurd (by simpa [hlh, hkh] using hor) (hh.apart i j l k hl hk hle hke hlh hkh)
    · exact hh.single i j l k hl hk hle hke hlh hkh

theorem Requests.mono {v : Vector (Option Lease) 16} {e : EntryIx} {n m : Nat} (h : Requests v e n) (hnm : n ≤ m) :
    Requests v e m where
  place i l hl he hp := (h.place i l hl he hp).imp_right hnm.trans'
  gapless := h.gapless
  unique := h.unique

/-- Without a request in place 1 there is none. -/
theorem Requests.none_of_no_first {v : Vector (Option Lease) 16} {e : EntryIx} {n : Nat} (h : Requests v e n)
    (hfirst : ∀ (i : Slot) (l : Lease), v[i] = some l → l.entry = e → l.isHeld = false → l.order ≠ 1) (i : Slot) (l : Lease)
    (hl : v[i] = some l) (he : l.entry = e) : l.isHeld = true := by
  by_contra hheld
  have hp : l.isHeld = false := by simpa using hheld
  have hnone : ∀ k (i : Slot) (l : Lease), v[i] = some l → l.entry = e → l.isHeld = false → l.order ≠ k := by
    intro k
    induction k with
    | zero =>
      intro i l hl he hp
      have := h.place i l hl he hp
      omega
    | succ k ih =>
      intro i l hl he hp ho
      obtain ⟨j, y, hy, hye, hyp, hyo⟩ := h.gapless i l hl he hp (hfirst i l hl he hp)
      exact ih j y hy hye hyp (by omega)
  exact hnone _ i l hl he hp rfl

/-! ### Requests withdrawn -/

/-- A request that is left when another on its entry is freed: one place further forward where it stood behind it. -/
theorem Requests.left {s : State} {e : EntryIx} {n : Nat} (h : Requests s.leases e n) {i j : Slot} {x l : Lease}
    (hx : s.leases[i] = some x) (he : x.entry = e) (hp : x.isHeld = false)
    (hl : (s.freeRecord (i, x)).leases[j] = some l) (hle : l.entry = e) (hlp : l.isHeld = false) :
    ∃ y, s.leases[j] = some y ∧ y.entry = e ∧ y.isHeld = false ∧ i ≠ j ∧ y.order ≠ x.order ∧ x.afterFree y = l ∧
      l.order = if x.order < y.order then y.order - 1 else y.order := by
  obtain ⟨hij, y, hy, rfl⟩ := State.freeRecord_leases_some.1 hl
  obtain ⟨-, hentry, hheld, -⟩ := x.afterFree_same y
  have hye : y.entry = e := hentry ▸ hle
  have hyp : y.isHeld = false := hheld ▸ hlp
  have hne : y.order ≠ x.order := fun ho => hij (h.unique i j x y hx hy he hye hp hyp (.inr ho.symm))
  refine ⟨y, hy, hye, hyp, hij, hne, rfl, ?_⟩
  rw [Lease.afterFree_pending hp, Lease.moveUp_order, he]
  simp [hyp, hye]

/-- A request withdrawn: those left stand in the places 1 to `n` without a gap. -/
theorem Requests.free {s : State} {e : EntryIx} {n : Nat} (h : Requests s.leases e (n + 1)) {i : Slot} {x : Lease}
    (hx : s.leases[i] = some x) (he : x.entry = e) (hp : x.isHeld = false) :
    Requests (s.freeRecord (i, x)).leases e n where
  place j l hl hle hlp := by
    obtain ⟨y, hy, hye, hyp, -, hne, -, ho⟩ := h.left hx he hp hl hle hlp
    obtain ⟨hx₁, hx₂⟩ := h.place i x hx he hp
    obtain ⟨hy₁, hy₂⟩ := h.place j y hy hye hyp
    split at ho <;> omega
  gapless j l hl hle hlp hne₁ := by
    obtain ⟨y, hy, hye, hyp, -, hne, -, ho⟩ := h.left hx he hp hl hle hlp
    have hback (j' : Slot) (k : Lease) (hk : s.leases[j'] = some k) (hke : k.entry = e) (hkp : k.isHeld = false)
        (hko : k.order ≠ x.order) (hkl : (if x.order < k.order then k.order - 1 else k.order) + 1 = l.order) :
        ∃ (m : Slot) (z : Lease), (s.freeRecord (i, x)).leases[m] = some z ∧ z.entry = e ∧ z.isHeld = false ∧
          z.order + 1 = l.order := by
      have hij : i ≠ j' := by
        rintro rfl
        rw [hx] at hk
        cases hk
        exact hko rfl
      have hz : (s.freeRecord (i, x)).leases[j'] = some (x.afterFree k) := State.freeRecord_leases_some.2 ⟨hij, k, hk, rfl⟩
      obtain ⟨-, hentry, hheld, -⟩ := x.afterFree_same k
      obtain ⟨k', hk', -, -, -, -, -, hzo⟩ := h.left hx he hp hz (hentry.trans hke) (hheld.trans hkp)
      rw [hk] at hk'
      cases hk'
      exact ⟨j', _, hz, hentry.trans hke, hheld.trans hkp, hzo ▸ hkl⟩
    have hx₁ := (h.place i x hx he hp).1
    obtain ⟨j', k, hk, hke, hkp, hko⟩ := h.gapless j y hy hye hyp (by split at ho <;> omega)
    by_cases hkx : k.order = x.order
    · obtain ⟨j'', k', hk', hke', hkp', hko'⟩ := h.gapless i x hx he hp (by split at ho <;> omega)
      exact hback j'' k' hk' hke' hkp' (by omega) (by split at ho <;> split <;> omega)
    · exact hback j' k hk hke hkp hkx (by split at ho <;> split <;> omega)
  unique j j' l k hl hk hle hke hlp hkp hor := by
    obtain ⟨y, hy, hye, hyp, -, hyx, hyl, hlo⟩ := h.left hx he hp hl hle hlp
    obtain ⟨z, hz, hze, hzp, -, hzx, hzk, hko⟩ := h.left hx he hp hk hke hkp
    refine h.unique j j' y z hy hz hye hze hyp hzp (hor.imp (fun hport => ?_) fun ho => ?_)
    · rw [← (x.afterFree_same y).1, ← (x.afterFree_same z).1, hyl, hzk]
      exact hport
    · split at hlo <;> split at hko <;> omega

/-- A record whose place alone is another. -/
theorem Lease.moveUp_eq {l : Lease} (h : l.isHeld = false) (e : EntryIx) (k : Nat) :
    l.moveUp e k = { l with status := .pending (l.moveUp e k).order } := by
  obtain ⟨p, x, g, r, st⟩ := l
  cases st with
  | held t n => cases h
  | pending o =>
    unfold Lease.moveUp
    dsimp only
    split <;> rfl

/-- `t` is `s` with requests on `e` withdrawn: every other record stays, and the requests left keep their order among them. -/
structure Withdrawn (e : EntryIx) (s t : State) : Prop where
  others : ∀ (i : Slot) (l : Lease), l.entry ≠ e ∨ l.isHeld = true → (t.leases[i] = some l ↔ s.leases[i] = some l)
  stem : ∀ (i : Slot) (l' : Lease), t.leases[i] = some l' → l'.entry = e → l'.isHeld = false →
    ∃ l, s.leases[i] = some l ∧ l.entry = e ∧ l.isHeld = false ∧ l' = { l with status := .pending l'.order }
  order : ∀ (i j : Slot) (l k l' k' : Lease), s.leases[i] = some l → s.leases[j] = some k →
    t.leases[i] = some l' → t.leases[j] = some k' → l'.entry = e → k'.entry = e → l'.isHeld = false → k'.isHeld = false →
    (l'.order ≤ k'.order ↔ l.order ≤ k.order)

theorem Withdrawn.refl (e : EntryIx) (s : State) : Withdrawn e s s where
  others _ _ _ := Iff.rfl
  stem i l hl he hp := by
    refine ⟨l, hl, he, hp, ?_⟩
    obtain ⟨p, x, g, r, st⟩ := l
    cases st with
    | held t n => cases hp
    | pending o => rfl
  order i j l k l' k' hl hk hl' hk' _ _ _ _ := by
    rw [hl] at hl'
    rw [hk] at hk'
    cases hl'
    cases hk'
    rfl

theorem Withdrawn.trans {e : EntryIx} {s t u : State} (h : Withdrawn e s t) (h' : Withdrawn e t u) : Withdrawn e s u where
  others i l hl := (h'.others i l hl).trans (h.others i l hl)
  stem i l' hl' he hp := by
    obtain ⟨k, hk, hke, hkp, hlk⟩ := h'.stem i l' hl' he hp
    obtain ⟨l, hl, hle, hlp, hkl⟩ := h.stem i k hk hke hkp
    refine ⟨l, hl, hle, hlp, ?_⟩
    rw [hlk, hkl]
    rfl
  order i j l k l' k' hl hk hl' hk' hle hke hlp hkp := by
    obtain ⟨y, hy, hye, hyp, -⟩ := h'.stem i l' hl' hle hlp
    obtain ⟨z, hz, hze, hzp, -⟩ := h'.stem j k' hk' hke hkp
    exact (h'.order i j y z l' k' hy hz hl' hk' hle hke hlp hkp).trans (h.order i j l k y z hl hk hy hz hye hze hyp hzp)

/-- One request freed. -/
theorem Requests.withdrawn {s : State} {e : EntryIx} {n : Nat} (h : Requests s.leases e n) {i : Slot} {x : Lease}
    (hx : s.leases[i] = some x) (he : x.entry = e) (hp : x.isHeld = false) : Withdrawn e s (s.freeRecord (i, x)) where
  others j l hl := by
    have hstays : ∀ y : Lease, x.afterFree y = l ↔ y = l := by
      intro y
      obtain ⟨-, hentry, hheld, -⟩ := x.afterFree_same y
      have hfix (hy : y.entry ≠ e ∨ y.isHeld = true) : x.afterFree y = y := by
        obtain hy | hy := hy
        · exact Lease.afterFree_other (he.symm ▸ hy)
        · rw [Lease.afterFree_pending hp]
          obtain ⟨p, f, g, r, st⟩ := y
          cases st with
          | held t n => rfl
          | pending o => cases hy
      constructor
      · rintro rfl
        exact (hfix (by rwa [hentry, hheld] at hl)).symm
      · rintro rfl
        exact hfix hl
    rw [State.freeRecord_leases_some]
    simp only [hstays, exists_eq_right]
    refine ⟨And.right, fun hj => ⟨?_, hj⟩⟩
    rintro rfl
    rw [hx] at hj
    cases hj
    simp [he, hp] at hl
  stem j l' hl' hle hlp := by
    obtain ⟨y, hy, hye, hyp, -, -, rfl, -⟩ := h.left hx he hp hl' hle hlp
    refine ⟨y, hy, hye, hyp, ?_⟩
    rw [Lease.afterFree_pending hp]
    exact Lease.moveUp_eq hyp _ _
  order j j' l k l' k' hl hk hl' hk' hle hke hlp hkp := by
    obtain ⟨y, hy, -, -, -, hyx, -, hyo⟩ := h.left hx he hp hl' hle hlp
    obtain ⟨z, hz, -, -, -, hzx, -, hzo⟩ := h.left hx he hp hk' hke hkp
    rw [hl] at hy
    rw [hk] at hz
    cases hy
    cases hz
    split at hyo <;> split at hzo <;> omega

theorem Holder.withdrawn {e : EntryIx} {s t : State} (h : Holder s.leases e) (hw : Withdrawn e s t) : Holder t.leases e where
  single i j l k hl hk hle hke hlh hkh :=
    h.single i j l k ((hw.others i l (.inr hlh)).1 hl) ((hw.others j k (.inr hkh)).1 hk) hle hke hlh hkh
  apart i j l k hl hk hle hke hlh hkp := by
    obtain ⟨y, hy, hye, hyp, hyk⟩ := hw.stem j k hk hke hkp
    rw [hyk]
    exact h.apart i j l y ((hw.others i l (.inr hlh)).1 hl) hy hle hye hlh hyp
  behind i l hl hle hlp := by
    obtain ⟨y, hy, hye, hyp, -⟩ := hw.stem i l hl hle hlp
    obtain ⟨j, k, hk, hke, hkh⟩ := h.behind i y hy hye hyp
    exact ⟨j, k, (hw.others j k (.inr hkh)).2 hk, hke, hkh⟩

/-- A request withdrawn behind a holder (R113, R121). -/
theorem EntryRecords.freeRequest {s : State} {e : EntryIx} (h : EntryRecords s.leases e) {i : Slot} {x : Lease}
    (hx : s.leases[i] = some x) (he : x.entry = e) (hp : x.isHeld = false) :
    EntryRecords (s.freeRecord (i, x)).leases e :=
  .of_parts ((h.requests.mono (Nat.le_succ 3)).free hx he hp) (h.holder.withdrawn (h.requests.withdrawn hx he hp))

/-! ### The oldest request promoted (R122) -/

/-- The records after a promotion: the request of place 1 is HELD, those behind it have moved forward. -/
theorem State.promote_leases_some {s : State} {e : EntryIx} {i j : Slot} {x k : Lease} (hx : s.pendingAt e 1 = some (i, x)) :
    (s.promote e).leases[j] = some k ↔
      i = j ∧ { x with status := .held s.tokenToIssue (s.clip e x.requested * Config.ticksPerMs) } = k ∨
        i ≠ j ∧ ∃ y, s.leases[j] = some y ∧ y.moveUp e 1 = k := by
  rw [State.promote_some hx, State.post_leases, State.closeGap_leases, State.afterIssue_leases, State.setLease_leases,
    Fin.getElem_fin, tabMap_getElem, ← Fin.getElem_fin]
  by_cases hij : i = j
  · subst hij
    rw [tabUpd_self]
    simp [Lease.moveUp]
  · rw [tabUpd_other _ _ _ _ hij]
    simp [hij]

/-- Requests without a holder. -/
theorem RequestsOnly.requests {v : Vector (Option Lease) 16} {e : EntryIx} {n : Nat} (h : RequestsOnly v e n) :
    Requests v e n where
  place i l hl he _ := (h.pending i l hl he).2
  gapless i l hl he _ hne := by
    obtain ⟨j, k, hk, hke, hko⟩ := h.gapless i l hl he hne
    exact ⟨j, k, hk, hke, (h.pending j k hk hke).1, hko⟩
  unique i j l k hl hk hle hke _ _ := h.unique i j l k hl hk hle hke

/-- A promotion on an entry that has requests alone makes the oldest the holder before the others. -/
theorem Requests.promote {s : State} {e : EntryIx} (h : Requests s.leases e 3)
    (hnone : ∀ (i : Slot) (l : Lease), s.leases[i] = some l → l.entry = e → l.isHeld = false) :
    EntryRecords (s.promote e).leases e := by
  cases hfirst : s.pendingAt e 1 with
  | none =>
    rw [State.promote_none hfirst]
    refine .of_none fun i l hl he => ?_
    have := h.none_of_no_first (State.pendingAt_none.1 hfirst) i l hl he
    exact Bool.noConfusion (this.symm.trans (hnone i l hl he))
  | some ix =>
    obtain ⟨i, x⟩ := ix
    obtain ⟨hx, hxe, hxp, hxo⟩ := State.pendingAt_some hfirst
    have hrecord {j : Slot} {k : Lease} (hk : (s.promote e).leases[j] = some k) (hke : k.entry = e) :
        i = j ∧ k.isHeld = true ∧ k.port = x.port ∨
          i ≠ j ∧ k.isHeld = false ∧ ∃ y, s.leases[j] = some y ∧ y.entry = e ∧ y.isHeld = false ∧ k.port = y.port ∧
            1 ≤ k.order ∧ k.order + 1 = y.order := by
      obtain ⟨rfl, rfl⟩ | ⟨hij, y, hy, rfl⟩ := (State.promote_leases_some hfirst).1 hk
      · exact .inl ⟨rfl, rfl, rfl⟩
      · obtain ⟨hport, hentry, -, -, hheld, -, -⟩ := y.moveUp_same e 1
        have hye : y.entry = e := hentry ▸ hke
        have hyp := hnone j y hy hye
        have hy₁ := (h.place j y hy hye hyp).1
        have hne : y.order ≠ 1 := fun ho => hij (h.unique i j x y hx hy hxe hye hxp hyp (.inr (hxo.trans ho.symm)))
        have hord := Lease.moveUp_order e 1 y
        rw [if_pos ⟨hyp, hye, by omega⟩] at hord
        exact .inr ⟨hij, hheld.trans hyp, y, hy, hye, hyp, hport, by omega, by omega⟩
    have hholder : ∃ k, (s.promote e).leases[i] = some k ∧ k.entry = e ∧ k.isHeld = true :=
      ⟨_, (State.promote_leases_some hfirst).2 (.inl ⟨rfl, rfl⟩), hxe, rfl⟩
    refine .of_parts ⟨fun j l hl hle hlp => ?_, fun j l hl hle hlp hne => ?_, fun j j' l k hl hk hle hke hlp hkp hor => ?_⟩
      ⟨fun j j' l k hl hk hle hke hlh hkh => ?_, fun j j' l k hl hk hle hke hlh hkp hport => ?_, fun j l hl hle hlp => ?_⟩
    · obtain ⟨-, hlh, -⟩ | ⟨-, -, y, hy, hye, hyp, -, h₁, ho⟩ := hrecord hl hle
      · exact Bool.noConfusion (hlh.symm.trans hlp)
      · have := (h.place j y hy hye hyp).2
        omega
    · obtain ⟨-, hlh, -⟩ | ⟨-, -, y, hy, hye, hyp, -, h₁, ho⟩ := hrecord hl hle
      · exact Bool.noConfusion (hlh.symm.trans hlp)
      · obtain ⟨j', k, hk, hke, hkp, hko⟩ := h.gapless j y hy hye hyp (by omega)
        have hij : i ≠ j' := by
          rintro rfl
          rw [hx] at hk
          cases hk
          omega
        have hk' := (State.promote_leases_some (k := k.moveUp e 1) hfirst).2 (.inr ⟨hij, k, hk, rfl⟩)
        obtain ⟨-, hentry, -, -, hheld, -, -⟩ := k.moveUp_same e 1
        obtain ⟨rfl, -⟩ | ⟨-, -, z, hz, -, -, -, -, hzo⟩ := hrecord hk' (hentry.trans hke)
        · exact absurd rfl hij
        · rw [hk] at hz
          cases hz
          exact ⟨j', _, hk', hentry.trans hke, hheld.trans hkp, by omega⟩
    · obtain ⟨-, hlh, -⟩ | ⟨-, -, y, hy, hye, hyp, hly, -, hlo⟩ := hrecord hl hle
      · exact Bool.noConfusion (hlh.symm.trans hlp)
      · obtain ⟨-, hkh, -⟩ | ⟨-, -, z, hz, hze, hzp, hkz, -, hko⟩ := hrecord hk hke
        · exact Bool.noConfusion (hkh.symm.trans hkp)
        · refine h.unique j j' y z hy hz hye hze hyp hzp (hor.imp (fun hport => ?_) fun ho => by omega)
          rw [← hly, ← hkz, hport]
    · obtain ⟨rfl, -⟩ | ⟨-, hlp, -⟩ := hrecord hl hle
      · obtain ⟨rfl, -⟩ | ⟨-, hkp, -⟩ := hrecord hk hke
        · rfl
        · exact Bool.noConfusion (hkh.symm.trans hkp)
      · exact Bool.noConfusion (hlh.symm.trans hlp)
    · obtain ⟨rfl, -, hlx⟩ | ⟨-, hlp, -⟩ := hrecord hl hle
      · obtain ⟨-, hkh, -⟩ | ⟨hij, -, z, hz, hze, hzp, hkz, -⟩ := hrecord hk hke
        · exact Bool.noConfusion (hkh.symm.trans hkp)
        · exact hij (h.unique i j' x z hx hz hxe hze hxp hzp (.inl (by rw [← hlx, ← hkz, hport])))
      · exact Bool.noConfusion (hlh.symm.trans hlp)
    · obtain ⟨k, hk, hke, hkh⟩ := hholder
      exact ⟨i, k, hk, hke, hkh⟩

/-! ### Changes at one entry -/

/-- The records of other entries stay, and every record left was there, for the same port, entry, generation and duration. -/
structure OnlyEntry (e : EntryIx) (s t : State) : Prop where
  others : ∀ (i : Slot) (l : Lease), l.entry ≠ e → (t.leases[i] = some l ↔ s.leases[i] = some l)
  stems : ∀ (i : Slot) (l' : Lease), t.leases[i] = some l' → ∃ l, s.leases[i] = some l ∧ l'.port = l.port ∧
    l'.entry = l.entry ∧ l'.gen = l.gen ∧ l'.requested = l.requested

theorem OnlyEntry.refl (e : EntryIx) (s : State) : OnlyEntry e s s :=
  ⟨fun _ _ _ => Iff.rfl, fun _ l hl => ⟨l, hl, rfl, rfl, rfl, rfl⟩⟩

theorem OnlyEntry.trans {e : EntryIx} {s t u : State} (h : OnlyEntry e s t) (h' : OnlyEntry e t u) : OnlyEntry e s u where
  others i l hl := (h'.others i l hl).trans (h.others i l hl)
  stems i l' hl' := by
    obtain ⟨k, hk, hkp, hke, hkg, hkr⟩ := h'.stems i l' hl'
    obtain ⟨l, hl, hlp, hle, hlg, hlr⟩ := h.stems i k hk
    exact ⟨l, hl, hkp.trans hlp, hke.trans hle, hkg.trans hlg, hkr.trans hlr⟩

theorem OnlyEntry.of_same {e : EntryIx} {s t : State} (h : t.leases = s.leases) : OnlyEntry e s t := by
  refine ⟨fun _ _ _ => by rw [h], fun i l hl => ⟨l, ?_, rfl, rfl, rfl, rfl⟩⟩
  rw [← h]
  exact hl

theorem OnlyEntry.freeRecord (s : State) {i : Slot} {x : Lease} (hx : s.leases[i] = some x) :
    OnlyEntry x.entry s (s.freeRecord (i, x)) where
  others j l hl := by
    rw [State.freeRecord_leases_some]
    constructor
    · rintro ⟨-, y, hy, rfl⟩
      rw [(x.afterFree_same y).2.1] at hl
      rwa [Lease.afterFree_other hl]
    · intro hj
      refine ⟨?_, l, hj, Lease.afterFree_other hl⟩
      rintro rfl
      rw [hx] at hj
      cases hj
      exact hl rfl
  stems j l' hl' := by
    obtain ⟨-, y, hy, rfl⟩ := State.freeRecord_leases_some.1 hl'
    refine ⟨y, hy, ?_⟩
    cases hp : x.isHeld with
    | true => simp [Lease.afterFree_held hp]
    | false =>
      rw [Lease.afterFree_pending hp]
      obtain ⟨hport, hentry, hgen, hreq, -⟩ := y.moveUp_same x.entry x.order
      exact ⟨hport, hentry, hgen, hreq⟩

/-- Moving forward on one entry leaves the records of others. -/
theorem Lease.moveUp_other {l : Lease} {e : EntryIx} (h : l.entry ≠ e) (k : Nat) : l.moveUp e k = l := by
  unfold Lease.moveUp
  split
  · exact if_neg fun hc => h hc.1
  · rfl

theorem OnlyEntry.promote (s : State) (e : EntryIx) : OnlyEntry e s (s.promote e) := by
  cases hfirst : s.pendingAt e 1 with
  | none =>
    rw [State.promote_none hfirst]
    exact .refl e s
  | some ix =>
    obtain ⟨i, x⟩ := ix
    obtain ⟨hx, hxe, -, -⟩ := State.pendingAt_some hfirst
    constructor
    · intro j l hl
      rw [State.promote_leases_some hfirst]
      constructor
      · rintro (⟨rfl, rfl⟩ | ⟨-, y, hy, rfl⟩)
        · exact absurd hxe hl
        · rw [(y.moveUp_same e 1).2.1] at hl
          rwa [Lease.moveUp_other hl]
      · intro hj
        refine .inr ⟨?_, l, hj, Lease.moveUp_other hl 1⟩
        rintro rfl
        rw [hx] at hj
        cases hj
        exact hl hxe
    · intro j l' hl'
      obtain ⟨rfl, rfl⟩ | ⟨-, y, hy, rfl⟩ := (State.promote_leases_some hfirst).1 hl'
      · exact ⟨x, hx, rfl, rfl, rfl, rfl⟩
      · obtain ⟨hport, hentry, hgen, hreq, -⟩ := y.moveUp_same e 1
        exact ⟨y, hy, hport, hentry, hgen, hreq⟩

/-- A HELD record given another remaining time. -/
theorem OnlyEntry.retime (s : State) {i : Slot} {x : Lease} (hx : s.leases[i] = some x) (st : LeaseStatus) :
    OnlyEntry x.entry s (s.setLease i (some { x with status := st })) where
  others j l hl := by
    rw [State.setLease_leases, tabUpd_some]
    constructor
    · rintro (⟨rfl, h⟩ | ⟨-, h⟩)
      · cases h
        exact absurd rfl hl
      · exact h
    · intro hj
      refine .inr ⟨?_, hj⟩
      rintro rfl
      rw [hx] at hj
      cases hj
      exact hl rfl
  stems j l' hl' := by
    rw [State.setLease_leases, tabUpd_some] at hl'
    obtain ⟨rfl, h⟩ | ⟨-, h⟩ := hl'
    · cases h
      exact ⟨x, hx, rfl, rfl, rfl, rfl⟩
    · exact ⟨l', h, rfl, rfl, rfl, rfl⟩

/-- A change at one entry with the directory as it is, that keeps the law of that entry. -/
theorem LeaseLaw.of_entry {s t : State} {e : EntryIx} (h : LeaseLaw s) (hd : t.directory = s.directory) (ht : OnlyEntry e s t)
    (he : EntryRecords t.leases e) : LeaseLaw t := by
  obtain ⟨hentries, hlive⟩ := leaseLaw_iff.1 h
  refine leaseLaw_iff.2 ⟨fun f => ?_, fun i l' hl' => ?_⟩
  · by_cases hf : f = e
    · exact hf ▸ he
    · exact (hentries f).congr fun i l hl => ht.others i l (hl ▸ hf)
  · obtain ⟨l, hl, hport, hentry, hgen, -⟩ := ht.stems i l' hl'
    have := hlive i l hl
    unfold State.Live State.route at this ⊢
    simp only [hd, hport, hentry, hgen]
    exact this

/-- A change of neither the Lease Table nor the directory. -/
theorem LeaseLaw.of_same {s t : State} (h : LeaseLaw s) (hd : t.directory = s.directory) (hl : t.leases = s.leases) :
    LeaseLaw t := by
  unfold LeaseLaw State.route at h ⊢
  rw [hd, hl]
  exact h

/-- The same records but for their tokens and remaining times. -/
theorem EntryRecords.of_shape {v w : Vector (Option Lease) 16} {e : EntryIx} (h : EntryRecords v e)
    (hback : ∀ (i : Slot) (l' : Lease), w[i] = some l' → ∃ l, v[i] = some l ∧ l'.port = l.port ∧ l'.entry = l.entry ∧
      l'.isHeld = l.isHeld ∧ l'.order = l.order)
    (hforth : ∀ (i : Slot) (l : Lease), v[i] = some l → ∃ l', w[i] = some l') : EntryRecords w e where
  unique i j l k hl hk hle hke hor := by
    obtain ⟨y, hy, hyp, hye, hyh, hyo⟩ := hback i l hl
    obtain ⟨z, hz, hzp, hze, hzh, hzo⟩ := hback j k hk
    exact h.unique i j y z hy hz (hye ▸ hle) (hze ▸ hke) (by rwa [hyp, hzp, hyh, hzh, hyo, hzo] at hor)
  place i l hl hle hp := by
    obtain ⟨y, hy, -, hye, hyh, hyo⟩ := hback i l hl
    exact hyo ▸ h.place i y hy (hye ▸ hle) (hyh ▸ hp)
  behindHolder i l hl hle hp := by
    obtain ⟨y, hy, -, hye, hyh, -⟩ := hback i l hl
    obtain ⟨j, k, hk, hke, hkh⟩ := h.behindHolder i y hy (hye ▸ hle) (hyh ▸ hp)
    obtain ⟨k', hk'⟩ := hforth j k hk
    obtain ⟨z, hz, -, hze, hzh, -⟩ := hback j k' hk'
    rw [hk] at hz
    cases hz
    exact ⟨j, k', hk', hze.trans hke, hzh.trans hkh⟩
  gapless i l hl hle hp hne := by
    obtain ⟨y, hy, -, hye, hyh, hyo⟩ := hback i l hl
    obtain ⟨j, k, hk, hke, hkp, hko⟩ := h.gapless i y hy (hye ▸ hle) (hyh ▸ hp) (hyo ▸ hne)
    obtain ⟨k', hk'⟩ := hforth j k hk
    obtain ⟨z, hz, -, hze, hzh, hzo⟩ := hback j k' hk'
    rw [hk] at hz
    cases hz
    exact ⟨j, k', hk', hze.trans hke, hzh.trans hkp, by omega⟩

/-- A HELD record given another remaining time, or another token. -/
theorem EntryRecords.retime {s : State} {e : EntryIx} (h : EntryRecords s.leases e) {i : Slot} {x : Lease}
    (hx : s.leases[i] = some x) (hheld : x.isHeld = true) (tok : Byte) (n : Nat) :
    EntryRecords (s.setLease i (some { x with status := .held tok n })).leases e := by
  have horder : x.order = 0 := by
    obtain ⟨p, f, g, r, st⟩ := x
    cases st with
    | held t n => rfl
    | pending o => cases hheld
  refine h.of_shape (fun j l' hl' => ?_) fun j l hl => ?_
  · rw [State.setLease_leases, tabUpd_some] at hl'
    obtain ⟨rfl, hx'⟩ | ⟨-, hl⟩ := hl'
    · cases hx'
      exact ⟨x, hx, rfl, rfl, hheld.symm, horder.symm⟩
    · exact ⟨l', hl, rfl, rfl, rfl, rfl⟩
  · by_cases hij : i = j
    · exact ⟨_, by rw [State.setLease_leases, tabUpd_some]; exact .inl ⟨hij, rfl⟩⟩
    · exact ⟨l, by rw [State.setLease_leases, tabUpd_some]; exact .inr ⟨hij, hl⟩⟩

end Sys2Proof.Machine
end

section
/-! SUPPORT. The law of the Lease Table (R113) through the commands that act on leases and on the directory. -/

namespace Sys2Proof.Machine

/-! ### Requests of ports that lose sight of an entry (R127) -/

/-- The request that is found without visibility. -/
theorem State.pendingUnseen_some {s : State} {e : EntryIx} {vis : PortMask} {i : Slot} {x : Lease}
    (h : s.pendingUnseen e vis = some (i, x)) :
    s.leases[i] = some x ∧ x.entry = e ∧ x.isHeld = false ∧ hasPort vis x.port = false := by
  obtain ⟨k, -, hk⟩ := List.exists_of_findSome?_eq_some h
  split at hk
  · next y hy =>
    split at hk
    · cases hk
    · next hvis =>
      cases hk
      obtain ⟨hx, he, hp, -⟩ := State.pendingAt_some hy
      exact ⟨hx, he, hp, by simpa using hvis⟩
  · cases hk

/-- Without one every request on the entry is of a port that sees it. -/
theorem State.pendingUnseen_none {s : State} {e : EntryIx} {vis : PortMask} {n : Nat} (hr : Requests s.leases e n) (hn : n ≤ 3)
    (h : s.pendingUnseen e vis = none) {i : Slot} {l : Lease} (hl : s.leases[i] = some l) (he : l.entry = e)
    (hp : l.isHeld = false) : hasPort vis l.port = true := by
  obtain ⟨h₁, h₃⟩ := hr.place i l hl he hp
  have hmem : l.order ∈ [1, 2, 3] := by
    simp only [List.mem_cons, List.not_mem_nil, or_false]
    omega
  have hat := List.findSome?_eq_none_iff.1 h l.order hmem
  cases hx : s.pendingAt e l.order with
  | none => exact absurd rfl (State.pendingAt_none.1 hx i l hl he hp)
  | some x =>
    obtain ⟨j, y⟩ := x
    obtain ⟨hy, hye, hyp, hyo⟩ := State.pendingAt_some hx
    obtain rfl := hr.unique j i y l hy hl hye he hyp hp (.inr hyo)
    rw [hl] at hy
    cases hy
    simp only [hx] at hat
    split at hat
    · assumption
    · cases hat

/-- `t` is `s` with the requests on `e` of ports outside `vis` withdrawn, each such port told, and nothing else touched. -/
structure Pruned (e : EntryIx) (vis : PortMask) (m : Option Seg) (s t : State) : Prop where
  withdrawn : Withdrawn e s t
  requests : Requests t.leases e 3
  seen : ∀ (i : Slot) (l : Lease), t.leases[i] = some l → l.entry = e → l.isHeld = false → hasPort vis l.port = true
  kept : ∀ (i : Slot) (l : Lease), s.leases[i] = some l → l.entry = e → l.isHeld = false → hasPort vis l.port = true →
    ∃ l', t.leases[i] = some l'
  told : ∀ (i : Slot) (l : Lease), s.leases[i] = some l → l.entry = e → l.isHeld = false → hasPort vis l.port = false →
    t.notices[l.port] = (s.notices[l.port]).store (.leaseRevoked .visibilityLost) (some e) m l.token
  untold : ∀ q : Port, (∀ (i : Slot) (l : Lease), s.leases[i] = some l → l.entry = e → l.isHeld = false → l.port = q →
    hasPort vis q = true) → t.notices[q] = s.notices[q]
  rest : t.besideLeases = s.besideLeases

theorem Pruned.refl {e : EntryIx} {vis : PortMask} {s : State} (m : Option Seg) (hr : Requests s.leases e 3)
    (hseen : ∀ (i : Slot) (l : Lease), s.leases[i] = some l → l.entry = e → l.isHeld = false → hasPort vis l.port = true) :
    Pruned e vis m s s where
  withdrawn := .refl e s
  requests := hr
  seen := hseen
  kept _ l hl _ _ _ := ⟨l, hl⟩
  told i l hl he hp hvis := by simp [hseen i l hl he hp] at hvis
  untold _ _ := rfl
  rest := rfl

/-- One request without visibility revoked before the others. -/
theorem Pruned.of_revoke {e : EntryIx} {vis : PortMask} {m : Option Seg} {n : Nat} {s t : State} {i : Slot} {x : Lease}
    (hr : Requests s.leases e n) (hx : s.leases[i] = some x) (he : x.entry = e) (hp : x.isHeld = false)
    (hvis : hasPort vis x.port = false) (h : Pruned e vis m (s.revoke (i, x) .visibilityLost m) t) : Pruned e vis m s t where
  withdrawn := (hr.withdrawn hx he hp).trans ⟨h.withdrawn.others, h.withdrawn.stem, h.withdrawn.order⟩
  requests := h.requests
  seen := h.seen
  kept j l hl hle hlp hlvis := by
    have hij : i ≠ j := by
      rintro rfl
      rw [hx] at hl
      cases hl
      simp [hvis] at hlvis
    obtain ⟨hport, hentry, hheld, -⟩ := x.afterFree_same l
    exact h.kept j (x.afterFree l) (State.freeRecord_leases_some.2 ⟨hij, l, hl, rfl⟩) (hentry.trans hle) (hheld.trans hlp)
      (hport ▸ hlvis)
  told j l hl hle hlp hlvis := by
    by_cases hij : i = j
    · subst hij
      rw [hx] at hl
      cases hl
      rw [h.untold x.port, State.revoke_notices, tabUpd_self, he]
      intro j k hk hke hkp hkport
      obtain ⟨y, hy, hye, hyp, hij, -, hyk, -⟩ := hr.left hx he hp hk hke hkp
      exact absurd (hr.unique i j x y hx hy he hye hp hyp (.inl (by rw [← hkport, ← hyk, (x.afterFree_same y).1]))) hij
    · obtain ⟨hport, hentry, hheld, htoken⟩ := x.afterFree_same l
      have hl' := h.told j (x.afterFree l) (State.freeRecord_leases_some.2 ⟨hij, l, hl, rfl⟩) (hentry.trans hle)
        (hheld.trans hlp) (hport.symm ▸ hlvis)
      have hne : x.port ≠ l.port := fun heq => hij (hr.unique i j x l hx hl he hle hp hlp (.inl heq))
      simp only [hport, htoken, State.revoke_notices, tabUpd_other _ _ _ _ hne] at hl'
      exact hl'
  untold q hq := by
    have hne : x.port ≠ q := by
      rintro rfl
      simp [hvis] at hq
      exact hq i x hx he hp rfl
    rw [h.untold q, State.revoke_notices, tabUpd_other _ _ _ _ hne]
    intro j k hk hke hkp hkport
    obtain ⟨y, hy, hye, hyp, -, -, hyk, -⟩ := hr.left hx he hp hk hke hkp
    exact hq j y hy hye hyp (by rw [← hkport, ← hyk, (x.afterFree_same y).1])
  rest := h.rest.trans (by simp)

/-- The requests of an entry that lose visibility are withdrawn one after the other (R127 step 2). -/
theorem State.cancelUnseen_pruned (e : EntryIx) (vis : PortMask) (m : Option Seg) (n : Nat) (s : State)
    (h : Requests s.leases e n) (hn : n ≤ 3) : Pruned e vis m s (State.cancelUnseen e vis m n s) := by
  induction n generalizing s with
  | zero =>
    refine .refl m (h.mono hn) fun i l hl he hp => ?_
    have := h.place i l hl he hp
    omega
  | succ n ih =>
    unfold State.cancelUnseen
    split
    · next x hx =>
      obtain ⟨i, x⟩ := x
      obtain ⟨hl, he, hp, hvis⟩ := State.pendingUnseen_some hx
      exact .of_revoke h hl he hp hvis (ih _ (h.free hl he hp) (by omega))
    · next hnone => exact .refl m (h.mono hn) fun i l hl he hp => State.pendingUnseen_none h hn hnone hl he hp

theorem Withdrawn.onlyEntry {e : EntryIx} {s t : State} (h : Withdrawn e s t) : OnlyEntry e s t where
  others i l hl := h.others i l (.inl hl)
  stems i l' hl' := by
    by_cases hstay : l'.entry ≠ e ∨ l'.isHeld = true
    · exact ⟨l', (h.others i l' hstay).1 hl', rfl, rfl, rfl, rfl⟩
    · obtain ⟨l, hl, -, -, hll⟩ := h.stem i l' hl' (by tauto) (by simpa using fun hh => hstay (.inr hh))
      rw [hll]
      exact ⟨l, hl, rfl, rfl, rfl, rfl⟩

/-! ### Single operations -/

section
variable {s : State}

/-- A HELD record freed and the oldest request promoted keep the law of the entry. -/
theorem EntryRecords.freeAndPromote {e : EntryIx} (h : EntryRecords s.leases e) {i : Slot} {x : Lease}
    (hx : s.leases[i] = some x) (he : x.entry = e) (hheld : x.isHeld = true) {u : State}
    (hu : u.leases = (s.freeRecord (i, x)).leases) : EntryRecords (u.promote e).leases e := by
  have honly : RequestsOnly u.leases e 3 := hu ▸ h.freeHeld hx he hheld
  exact honly.requests.promote fun j l hl hle => (honly.pending j l hl hle).1

theorem OnlyEntry.freeAndPromote {i : Slot} {x : Lease} (hx : s.leases[i] = some x) {u : State}
    (hu : u.leases = (s.freeRecord (i, x)).leases) : OnlyEntry x.entry s (u.promote x.entry) :=
  ((OnlyEntry.freeRecord s hx).trans (.of_same hu)).trans (.promote u x.entry)

theorem besideTable_directory {s t : State} (h : t.besideTable = s.besideTable) : t.directory = s.directory :=
  (congrArg State.directory h :)

theorem LeaseLaw.freeAndPromote (h : LeaseLaw s) {i : Slot} {x : Lease} (hx : s.leases[i] = some x)
    (hheld : x.isHeld = true) : LeaseLaw (s.freeAndPromote (i, x)) :=
  h.of_entry (besideTable_directory (s.freeAndPromote_besideTable _)) (.freeAndPromote hx rfl)
    ((h.entryRecords x.entry).freeAndPromote hx rfl hheld rfl)

theorem LeaseLaw.expireLease (h : LeaseLaw s) {i : Slot} {x : Lease} (hx : s.leases[i] = some x) (hheld : x.isHeld = true) :
    LeaseLaw (s.expireLease (i, x)) :=
  h.of_entry (besideTable_directory (s.expireLease_besideTable _)) (.freeAndPromote hx rfl)
    ((h.entryRecords x.entry).freeAndPromote hx rfl hheld rfl)

theorem LeaseLaw.freeRequest (h : LeaseLaw s) {i : Slot} {x : Lease} (hx : s.leases[i] = some x) (hp : x.isHeld = false) :
    LeaseLaw (s.freeRecord (i, x)) :=
  h.of_entry (besideTable_directory (s.freeRecord_besideTable _)) (.freeRecord s hx)
    ((h.entryRecords x.entry).freeRequest hx rfl hp)

theorem LeaseLaw.freeOwn (h : LeaseLaw s) (q : Port) (e : EntryIx) : LeaseLaw (s.freeOwn q e) := by
  unfold State.freeOwn
  split
  · next x hrec =>
    obtain ⟨i, x⟩ := x
    obtain ⟨hx, -, -⟩ := State.recordOf_some hrec
    split
    · next hheld => exact h.freeAndPromote hx hheld
    · next hp => exact h.freeRequest hx (by simpa using hp)
  · exact h

theorem LeaseLaw.freeAllOwn (h : LeaseLaw s) (q : Port) : LeaseLaw (s.freeAllOwn q) := by
  unfold State.freeAllOwn
  generalize allEntries = es
  induction es generalizing s with
  | nil => exact h
  | cons e es ih => exact ih (h.freeOwn q e)

theorem LeaseLaw.retime (h : LeaseLaw s) {i : Slot} {x : Lease} (hx : s.leases[i] = some x) (hheld : x.isHeld = true)
    (tok : Byte) (n : Nat) : LeaseLaw (s.setLease i (some { x with status := .held tok n })) :=
  h.of_entry rfl (.retime s hx _) ((h.entryRecords x.entry).retime hx hheld tok n)

theorem LeaseLaw.respond (h : LeaseLaw s) (p : Port) (st : Status) (echo : Byte) (payload : List Byte) :
    LeaseLaw (s.respond p st echo payload) :=
  h.of_same rfl rfl

/-- Every record of an entry cleared. -/
theorem LeaseLaw.clearEntry (h : LeaseLaw s) (e : EntryIx) (c d : RevokeCause) (m : Option Seg) :
    LeaseLaw (s.clearEntry e c d m) := by
  have hcleared := State.clearEntry_cleared (h.entryRecords e) c d m
  refine h.of_entry (besideTable_directory (s.clearEntry_besideTable e c d m)) ⟨fun i l hl => ?_, fun i l hl => ?_⟩
    (.of_none fun i l hl => ((hcleared.leases i l).1 hl).2)
  · rw [hcleared.leases]
    exact and_iff_left hl
  · exact ⟨l, ((hcleared.leases i l).1 hl).1, rfl, rfl, rfl, rfl⟩

/-! ### Commands that edit the directory -/

/-- A record of the directory changed while no lease names it. -/
theorem LeaseLaw.onEntry (h : LeaseLaw s) {e : EntryIx} (hfree : ∀ (i : Slot) (l : Lease), s.leases[i] = some l → l.entry ≠ e)
    (f : Entry → Entry) : LeaseLaw (s.onEntry e f) := by
  obtain ⟨hentries, hlive⟩ := leaseLaw_iff.1 h
  refine leaseLaw_iff.2 ⟨hentries, fun i l hl => ?_⟩
  obtain ⟨hgen, r, hr, hvis⟩ := hlive i l hl
  have hother : (s.onEntry e f).directory[l.entry] = s.directory[l.entry] := tabUpd_other _ _ _ _ (Ne.symm (hfree i l hl))
  exact ⟨by rw [hother]; exact hgen, r, by rw [State.route, hother]; exact hr, hvis⟩

theorem LeaseLaw.cmdInsr (h : LeaseLaw s) (p : Port) (index vb span seg tb vis wp mode : Byte) (ml : Half) :
    LeaseLaw (s.cmdInsr p index vb span seg tb vis wp mode ml) := by
  unfold State.cmdInsr
  split
  · exact h.respond p _ _ _
  · next e r _ =>
    split
    · exact h.respond p _ _ _
    · next hfree =>
      split
      · exact h.respond p _ _ _
      · split
        · exact h.respond p _ _ _
        · refine (h.onEntry (fun i l hl he => ?_) _).respond p _ _ _
          obtain ⟨-, o, ho, -⟩ := (leaseLaw_iff.1 h).2 i l hl
          simp [← he, ho] at hfree

/-- An entry removed with its records: `u` is `s` with the route of `e` gone. -/
theorem LeaseLaw.cmdDelr (h : LeaseLaw s) (p : Port) (index : Byte) : LeaseLaw (s.cmdDelr p index) := by
  unfold State.cmdDelr
  split
  · exact h.respond p _ _ _
  · next e _ =>
    split
    · exact h.respond p _ _ _
    · next r _ =>
      have hcleared := State.clearEntry_cleared (s := s.onEntry e fun x => { x with route := none }) (h.entryRecords e)
        .routeRemoved .routeRemoved (some r.seg)
      have hdir := besideTable_directory
        ((s.onEntry e fun x => { x with route := none }).clearEntry_besideTable e .routeRemoved .routeRemoved (some r.seg))
      generalize (s.onEntry e fun x => { x with route := none }).clearEntry e .routeRemoved .routeRemoved (some r.seg) = t
        at hcleared hdir
      refine LeaseLaw.respond (leaseLaw_iff.2 ⟨fun f => ?_, fun i l hl => ?_⟩) p _ _ _
      · by_cases hf : f = e
        · exact .of_none fun i l hl => hf ▸ ((hcleared.leases i l).1 hl).2
        · refine (h.entryRecords f).congr fun i l hl => (hcleared.leases i l).trans (and_iff_left ?_)
          rwa [hl]
      · obtain ⟨hl', hne⟩ := (hcleared.leases i l).1 hl
        have hlive := (leaseLaw_iff.1 h).2 i l hl'
        have hother : t.directory[l.entry] = s.directory[l.entry] := by
          rw [hdir]
          exact tabUpd_other _ _ _ _ (Ne.symm hne)
        unfold State.Live State.route at hlive ⊢
        rwa [hother]

/-! ### The records of ports that lose visibility (R127) -/

/-- The law of the entry with the records of ports outside `vis` gone, and a holder in front again. -/
theorem State.loseVisibility_entry {e : EntryIx} (h : EntryRecords s.leases e) (vis : PortMask) (m : Option Seg) :
    EntryRecords (s.loseVisibility e vis m).leases e ∧ OnlyEntry e s (s.loseVisibility e vis m) ∧
      ∀ (i : Slot) (l : Lease), (s.loseVisibility e vis m).leases[i] = some l → l.entry = e → hasPort vis l.port = true := by
  unfold State.loseVisibility
  cases hheld : s.heldOn e with
  | none =>
    have hnone := h.none_of_no_held hheld
    have hpruned := State.cancelUnseen_pruned e vis m 3 s h.requests le_rfl
    have hnone' (i : Slot) (l : Lease) (hl : (State.cancelUnseen e vis m 3 s).leases[i] = some l) : l.entry ≠ e := by
      intro he
      obtain ⟨k, hk, -, hke, -⟩ := hpruned.withdrawn.onlyEntry.stems i l hl
      exact hnone i k hk (hke ▸ he)
    exact ⟨.of_none hnone', hpruned.withdrawn.onlyEntry, fun i l hl he => absurd he (hnone' i l hl)⟩
  | some ix =>
    obtain ⟨i, x⟩ := ix
    obtain ⟨hx, hxe, hxh⟩ := State.heldOn_some hheld
    dsimp only
    split
    · next hvis =>
      have hpruned := State.cancelUnseen_pruned e vis m 3 s h.requests le_rfl
      refine ⟨.of_parts hpruned.requests (h.holder.withdrawn hpruned.withdrawn), hpruned.withdrawn.onlyEntry,
        fun j l hl he => ?_⟩
      cases hlh : l.isHeld with
      | false => exact hpruned.seen j l hl he hlh
      | true =>
        have hl' := (hpruned.withdrawn.others j l (.inr hlh)).1 hl
        obtain rfl := h.holder.single i j x l hx hl' hxe he hxh hlh
        rw [hx] at hl'
        cases hl'
        exact hvis
    · next hvis =>
      have honly : RequestsOnly (s.revoke (i, x) .visibilityLost m).leases e 3 := h.freeHeld hx hxe hxh
      have hpruned := State.cancelUnseen_pruned e vis m 3 _ honly.requests le_rfl
      have hfirst : OnlyEntry e s (s.revoke (i, x) .visibilityLost m) :=
        hxe ▸ (OnlyEntry.freeRecord s hx).trans (.of_same rfl)
      have hnone (j : Slot) (l : Lease)
          (hl : (State.cancelUnseen e vis m 3 (s.revoke (i, x) .visibilityLost m)).leases[j] = some l) (he : l.entry = e) :
          l.isHeld = false := by
        by_contra hh
        have hl' := (hpruned.withdrawn.others j l (.inr (by simpa using hh))).1 hl
        exact hh (honly.pending j l hl' he).1
      refine ⟨hpruned.requests.promote hnone, (hfirst.trans hpruned.withdrawn.onlyEntry).trans (.promote _ e),
        fun j l hl he => ?_⟩
      obtain ⟨k, hk, hkp, hke, -⟩ := (OnlyEntry.promote _ e).stems j l hl
      rw [hkp]
      exact hpruned.seen j k hk (hke ▸ he) (hnone j k hk (hke ▸ he))

/-- The HELD record of an entry cut to a max lease. -/
theorem State.cutHeld_entry {e : EntryIx} (h : EntryRecords s.leases e) (ms : Nat) :
    EntryRecords (s.cutHeld e ms).leases e ∧ OnlyEntry e s (s.cutHeld e ms) := by
  unfold State.cutHeld
  cases hheld : s.heldOn e with
  | none => exact ⟨h, .refl e s⟩
  | some ix =>
    obtain ⟨i, x⟩ := ix
    obtain ⟨hx, hxe, hxh⟩ := State.heldOn_some hheld
    dsimp only
    rw [Lease.cut_held hxh]
    exact ⟨h.retime hx hxh _ _, hxe ▸ .retime s hx _⟩

theorem LeaseLaw.cmdModr (h : LeaseLaw s) (p : Port) (index vis wp mode : Byte) (ml : Half) :
    LeaseLaw (s.cmdModr p index vis wp mode ml) := by
  unfold State.cmdModr
  split
  · exact h.respond p _ _ _
  · next e x _ =>
    split
    · exact h.respond p _ _ _
    · next r hr =>
      split
      · exact h.respond p _ _ _
      · have hrecords : EntryRecords (s.onEntry e fun y => { y with route := some (r.withAccess x) }).leases e :=
          h.entryRecords e
        obtain ⟨hlost, honly, hseen⟩ := State.loseVisibility_entry hrecords x.vis (some r.seg)
        obtain ⟨hcut, hcutOnly⟩ := State.cutHeld_entry hlost x.maxLease
        have hedited : OnlyEntry e s (s.onEntry e fun y => { y with route := some (r.withAccess x) }) := .of_same rfl
        have htable := hedited.trans (honly.trans hcutOnly)
        have hdir := besideTable_directory ((State.cutHeld_besideTable _ e x.maxLease).trans
          ((s.onEntry e fun y => { y with route := some (r.withAccess x) }).loseVisibility_besideTable e x.vis (some r.seg)))
        refine LeaseLaw.respond (leaseLaw_iff.2 ⟨fun f => ?_, fun i l hl => ?_⟩) p _ _ _
        · by_cases hf : f = e
          · exact hf ▸ hcut
          · exact (h.entryRecords f).congr fun i l hl => htable.others i l (hl ▸ hf)
        · obtain ⟨k, hk, hport, hentry, hgen, -⟩ := htable.stems i l hl
          have hlive := (leaseLaw_iff.1 h).2 i k hk
          unfold State.Live State.route at hlive ⊢
          simp only [hdir, hport, hentry, hgen]
          by_cases he : k.entry = e
          · obtain ⟨hkgen, -⟩ := hlive
            obtain ⟨k', hk', hkport, hkentry, -⟩ := hcutOnly.stems i l hl
            have hvis := hseen i k' hk' (by rw [← hkentry, hentry, he])
            subst he
            rw [← hkport, hport] at hvis
            simp only [State.onEntry_directory, tabUpd_self]
            exact ⟨hkgen, _, rfl, hvis⟩
          · simp only [State.onEntry_directory, tabUpd_other _ _ _ _ (Ne.symm he)]
            exact hlive

/-! ### LACQ (R117, R118) -/

/-- The places of an entry's requests are those up to their number. -/
theorem Requests.pendingAt_isSome {e : EntryIx} {n : Nat} (h : Requests s.leases e n) {k : Nat} (hk : 2 ≤ k)
    (hsome : (s.pendingAt e k).isSome = true) : (s.pendingAt e (k - 1)).isSome = true := by
  obtain ⟨⟨i, l⟩, hl⟩ := Option.isSome_iff_exists.1 hsome
  obtain ⟨hi, he, hp, ho⟩ := State.pendingAt_some hl
  obtain ⟨j, y, hy, hye, hyp, hyo⟩ := h.gapless i l hi he hp (by omega)
  cases hx : s.pendingAt e (k - 1) with
  | some x => rfl
  | none => exact absurd (by omega) (State.pendingAt_none.1 hx j y hy hye hyp)

/-- The number of requests on an entry, by the places that are taken. -/
theorem State.pendingPorts_length (s : State) (e : EntryIx) : (s.pendingPorts e).length =
    (if (s.pendingAt e 1).isSome then 1 else 0) + (if (s.pendingAt e 2).isSome then 1 else 0) +
      if (s.pendingAt e 3).isSome then 1 else 0 := by
  unfold State.pendingPorts
  simp only [List.filterMap_cons, List.filterMap_nil]
  cases s.pendingAt e 1 <;> cases s.pendingAt e 2 <;> cases s.pendingAt e 3 <;> rfl

/-- A place of the list is taken exactly up to the number of requests. -/
theorem Requests.pendingAt_iff {e : EntryIx} (h : Requests s.leases e 3) (k : Nat) :
    (s.pendingAt e k).isSome = true ↔ 1 ≤ k ∧ k ≤ (s.pendingPorts e).length := by
  have hrange (hsome : (s.pendingAt e k).isSome = true) : 1 ≤ k ∧ k ≤ 3 := by
    obtain ⟨⟨i, l⟩, hl⟩ := Option.isSome_iff_exists.1 hsome
    obtain ⟨hi, he, hp, ho⟩ := State.pendingAt_some hl
    exact ho ▸ h.place i l hi he hp
  have h₂ : (s.pendingAt e 2).isSome = true → (s.pendingAt e 1).isSome = true := h.pendingAt_isSome le_rfl
  have h₃ : (s.pendingAt e 3).isSome = true → (s.pendingAt e 2).isSome = true := h.pendingAt_isSome (by omega)
  rw [State.pendingPorts_length]
  constructor
  · intro hsome
    obtain ⟨h₁, hle⟩ := hrange hsome
    interval_cases k
    · rw [if_pos hsome]
      omega
    · rw [if_pos hsome, if_pos (h₂ hsome)]
      omega
    · rw [if_pos hsome, if_pos (h₃ hsome), if_pos (h₂ (h₃ hsome))]
      omega
  · rintro ⟨h₁, hle⟩
    have : k ≤ 3 := hle.trans (by split_ifs <;> omega)
    interval_cases k <;> split_ifs at hle <;> simp_all

/-- A port without a record on an entry that another port holds finds at most two requests there: four ports in all. -/
theorem EntryRecords.room {e : EntryIx} (h : EntryRecords s.leases e) {p : Port} (hnone : s.recordOf p e = none)
    {i : Slot} {x : Lease} (hheld : s.heldOn e = some (i, x)) : (s.pendingPorts e).length ≤ 2 := by
  by_contra hlong
  have hnone := State.recordOf_none.1 hnone
  obtain ⟨hx, hxe, hxh⟩ := State.heldOn_some hheld
  have hplace (k : Fin 3) : ∃ (j : Slot) (l : Lease), s.leases[j] = some l ∧ l.entry = e ∧ l.isHeld = false ∧
      l.order = k.val + 1 := by
    obtain ⟨⟨j, l⟩, hl⟩ := Option.isSome_iff_exists.1 ((h.requests.pendingAt_iff (k.val + 1)).2 (by omega))
    obtain ⟨hj, he, hp, ho⟩ := State.pendingAt_some hl
    exact ⟨j, l, hj, he, hp, ho⟩
  choose slot lease hlease hentry hpending horder using hplace
  have hport : Function.Injective fun k => (lease k).port := by
    intro k k' heq
    have hslot := h.requests.unique (slot k) (slot k') (lease k) (lease k') (hlease k) (hlease k') (hentry k) (hentry k')
      (hpending k) (hpending k') (.inl heq)
    have hsame : lease k = lease k' :=
      Option.some.inj ((hlease k).symm.trans ((congrArg (fun m : Slot => s.leases[m]) hslot).trans (hlease k')))
    have hplaces := (horder k).symm.trans ((congrArg Lease.order hsame).trans (horder k'))
    ext
    omega
  have hp : ∀ k, (lease k).port ≠ p := fun k => hnone (slot k) (lease k) (hlease k) (hentry k)
  have hxp : x.port ≠ p := hnone i x hx hxe
  have hapart : ∀ k, x.port ≠ (lease k).port := fun k =>
    h.holder.apart i (slot k) x (lease k) hx (hlease k) hxe (hentry k) hxh (hpending k)
  have hcard : ({p, x.port} ∪ Finset.univ.image fun k => (lease k).port : Finset Port).card = 5 := by
    rw [Finset.card_union_of_disjoint, Finset.card_image_of_injective _ hport, Finset.card_pair (Ne.symm hxp)]
    · simp
    · rw [Finset.disjoint_left]
      intro y hy hy'
      simp only [Finset.mem_insert, Finset.mem_singleton] at hy
      simp only [Finset.mem_image, Finset.mem_univ, true_and] at hy'
      obtain ⟨k, rfl⟩ := hy'
      obtain hy | hy := hy
      · exact hp k hy
      · exact hapart k hy.symm
  have hle := Finset.card_le_univ ({p, x.port} ∪ Finset.univ.image fun k => (lease k).port : Finset Port)
  rw [hcard] at hle
  simp at hle

/-- A new record in a FREE slot is the only change of the table. -/
theorem State.makeLease_leases_some {i j : Slot} {p : Port} {e : EntryIx} {d : Nat} {st : LeaseStatus} {l : Lease} :
    (s.makeLease i p e d st).leases[j] = some l ↔
      i = j ∧ { port := p, entry := e, gen := s.directory[e].gen, requested := d, status := st } = l ∨
        i ≠ j ∧ s.leases[j] = some l := by
  unfold State.makeLease
  rw [State.setLease_leases, tabUpd_some, Option.some.injEq]

/-- A new record keeps the law where it keeps that of its entry, which its port sees. -/
theorem LeaseLaw.makeLease (h : LeaseLaw s) {i : Slot} {p : Port} {e : EntryIx} {d : Nat} {st : LeaseStatus} {r : Route}
    (hfree : s.leases[i] = none) (hr : s.route e = some r) (hvis : hasPort r.vis p = true)
    (he : EntryRecords (s.makeLease i p e d st).leases e) : LeaseLaw (s.makeLease i p e d st) := by
  obtain ⟨hentries, hlive⟩ := leaseLaw_iff.1 h
  refine leaseLaw_iff.2 ⟨fun f => ?_, fun j l hl => ?_⟩
  · by_cases hf : f = e
    · exact hf ▸ he
    · refine (hentries f).congr fun j l hl => ?_
      rw [State.makeLease_leases_some]
      constructor
      · rintro (⟨-, rfl⟩ | ⟨-, hj⟩)
        · exact absurd hl.symm hf
        · exact hj
      · intro hj
        refine .inr ⟨?_, hj⟩
        rintro rfl
        rw [hfree] at hj
        cases hj
  · obtain ⟨-, rfl⟩ | ⟨-, hj⟩ := State.makeLease_leases_some.1 hl
    · exact ⟨rfl, r, hr, hvis⟩
    · exact hlive j l hj

/-- A HELD record made on an entry without records. -/
theorem EntryRecords.makeHeld {i : Slot} {p : Port} {e : EntryIx} {d : Nat} {tok : Byte} {n : Nat}
    (hnone : ∀ (j : Slot) (l : Lease), s.leases[j] = some l → l.entry ≠ e) :
    EntryRecords (s.makeLease i p e d (.held tok n)).leases e := by
  have hrecord {j : Slot} {l : Lease} (hl : (s.makeLease i p e d (.held tok n)).leases[j] = some l) (he : l.entry = e) :
      i = j ∧ l.isHeld = true := by
    obtain ⟨hij, rfl⟩ | ⟨-, hj⟩ := State.makeLease_leases_some.1 hl
    · exact ⟨hij, rfl⟩
    · exact absurd he (hnone j l hj)
  have hpending {j : Slot} {l : Lease} (hl : (s.makeLease i p e d (.held tok n)).leases[j] = some l) (he : l.entry = e)
      (hp : l.isHeld = false) : False := Bool.noConfusion ((hrecord hl he).2.symm.trans hp)
  exact ⟨fun j j' l k hl hk hle hke _ => (hrecord hl hle).1.symm.trans (hrecord hk hke).1,
    fun j l hl he hp => (hpending hl he hp).elim, fun j l hl he hp => (hpending hl he hp).elim,
    fun j l hl he hp => (hpending hl he hp).elim⟩

/-- A request made at the tail of an entry's list. -/
theorem EntryRecords.makeRequest {e : EntryIx} (h : EntryRecords s.leases e) {p : Port} (hnone : s.recordOf p e = none)
    {i x : Slot} {y : Lease} (hheld : s.heldOn e = some (x, y)) (hfree : s.leases[i] = none) (d : Nat) :
    EntryRecords (s.makeLease i p e d (.pending ((s.pendingPorts e).length + 1))).leases e := by
  have hroom := h.room hnone hheld
  have hother := State.recordOf_none.1 hnone
  generalize hlen : (s.pendingPorts e).length = len at hroom
  have hplace : ∀ (j : Slot) (l : Lease), s.leases[j] = some l → l.entry = e → l.isHeld = false → l.order ≤ len := by
    intro j l hl he hp
    have hsome : (s.pendingAt e l.order).isSome = true := by
      cases hx : s.pendingAt e l.order with
      | some z => rfl
      | none => exact absurd rfl (State.pendingAt_none.1 hx j l hl he hp)
    exact hlen ▸ ((h.requests.pendingAt_iff _).1 hsome).2
  have hrecord {j : Slot} {l : Lease} (hl : (s.makeLease i p e d (.pending (len + 1))).leases[j] = some l) :
      i = j ∧ l.isHeld = false ∧ l.port = p ∧ l.order = len + 1 ∨ i ≠ j ∧ s.leases[j] = some l := by
    obtain ⟨hij, rfl⟩ | hj := State.makeLease_leases_some.1 hl
    · exact .inl ⟨hij, rfl, rfl, rfl⟩
    · exact .inr hj
  have hold {j : Slot} {l : Lease} (hl : s.leases[j] = some l) :
      (s.makeLease i p e d (.pending (len + 1))).leases[j] = some l := by
    refine State.makeLease_leases_some.2 (.inr ⟨?_, hl⟩)
    rintro rfl
    rw [hfree] at hl
    cases hl
  obtain ⟨hy, hye, hyh⟩ := State.heldOn_some hheld
  refine .of_parts ⟨fun j l hl he hp => ?_, fun j l hl he hp hne => ?_, fun j j' l k hl hk hle hke hlp hkp hor => ?_⟩
    ⟨fun j j' l k hl hk hle hke hlh hkh => ?_, fun j j' l k hl hk hle hke hlh hkp => ?_, fun _ _ _ _ _ => ⟨x, y, hold hy, hye, hyh⟩⟩
  · obtain ⟨-, -, -, ho⟩ | ⟨-, hj⟩ := hrecord hl
    · omega
    · exact h.place j l hj he hp
  · obtain ⟨-, -, -, ho⟩ | ⟨-, hj⟩ := hrecord hl
    · obtain ⟨⟨m, z⟩, hz⟩ := Option.isSome_iff_exists.1 ((h.requests.pendingAt_iff len).2 ⟨by omega, hlen.ge⟩)
      obtain ⟨hm, hze, hzp, hzo⟩ := State.pendingAt_some hz
      exact ⟨m, z, hold hm, hze, hzp, by omega⟩
    · obtain ⟨m, z, hm, hz⟩ := h.gapless j l hj he hp hne
      exact ⟨m, z, hold hm, hz⟩
  · obtain ⟨rfl, -, hlport, hlo⟩ | ⟨-, hj⟩ := hrecord hl <;> obtain ⟨rfl, -, hkport, hko⟩ | ⟨-, hj'⟩ := hrecord hk
    · rfl
    · obtain hport | ho := hor
      · exact absurd (hport.symm.trans hlport) (hother j' k hj' hke)
      · have := hplace j' k hj' hke hkp
        omega
    · obtain hport | ho := hor
      · exact absurd (hport.trans hkport) (hother j l hj hle)
      · have := hplace j l hj hle hlp
        omega
    · exact h.requests.unique j j' l k hj hj' hle hke hlp hkp hor
  · obtain ⟨-, hlp, -⟩ | ⟨-, hj⟩ := hrecord hl
    · exact Bool.noConfusion (hlh.symm.trans hlp)
    · obtain ⟨-, hkp, -⟩ | ⟨-, hj'⟩ := hrecord hk
      · exact Bool.noConfusion (hkh.symm.trans hkp)
      · exact h.holder.single j j' l k hj hj' hle hke hlh hkh
  · obtain ⟨-, hlp, -⟩ | ⟨-, hj⟩ := hrecord hl
    · exact Bool.noConfusion (hlh.symm.trans hlp)
    · obtain ⟨-, -, hkport, -⟩ | ⟨-, hj'⟩ := hrecord hk
      · rw [hkport]
        exact hother j l hj hle
      · exact h.holder.apart j j' l k hj hj' hle hke hlh hkp

theorem LeaseLaw.cmdLacq (h : LeaseLaw s) (p : Port) (index : Byte) (duration : Half) (wait : Byte) :
    LeaseLaw (s.cmdLacq p index duration wait) := by
  unfold State.cmdLacq
  split
  · exact h.respond p _ _ _
  · next e d w _ =>
    split
    · exact h.respond p _ _ _
    · next r hr =>
      split
      · exact h.respond p _ _ _
      · next hvis =>
        split
        · exact h.respond p _ _ _
        · next hrec =>
          split
          · exact h.respond p _ _ _
          · split
            · exact h.respond p _ _ _
            · next i hi =>
              have hfree := s.freeSlot?_some hi
              have hvis : hasPort r.vis p = true := by simpa using hvis
              split
              · next hheld =>
                have hnone := (h.entryRecords e).none_of_no_held hheld
                have hissued : LeaseLaw ((s.makeLease i p e d
                    (.held s.tokenToIssue (s.clip e d * Config.ticksPerMs))).afterIssue s.tokenToIssue) :=
                  (h.makeLease hfree hr hvis (.makeHeld hnone)).of_same rfl rfl
                exact hissued.respond p _ _ _
              · next hheld =>
                split
                · exact (h.makeLease hfree hr hvis ((h.entryRecords e).makeRequest hrec hheld hfree d)).respond p _ _ _
                · exact h.respond p _ _ _

/-! ### The other commands -/

theorem LeaseLaw.cmdLren (h : LeaseLaw s) (p : Port) (index token : Byte) (duration : Half) :
    LeaseLaw (s.cmdLren p index token duration) := by
  unfold State.cmdLren
  split
  · exact h.respond p _ _ _
  · split
    · exact h.respond p _ _ _
    · next hrec =>
      obtain ⟨hx, -, -⟩ := State.recordOf_some hrec
      split
      · next hok => exact (h.retime hx hok.1 _ _).respond p _ _ _
      · exact h.respond p _ _ _

theorem LeaseLaw.cmdLrel (h : LeaseLaw s) (p : Port) (index token : Byte) : LeaseLaw (s.cmdLrel p index token) := by
  unfold State.cmdLrel
  split
  · exact h.respond p _ _ _
  · split
    · unfold State.cancelLease
      split
      · exact h.respond p _ _ _
      · next hrec =>
        obtain ⟨hx, -, -⟩ := State.recordOf_some hrec
        split
        · exact h.respond p _ _ _
        · next hp => exact (h.freeRequest hx (by simpa using hp)).respond p _ _ _
    · unfold State.releaseLease
      split
      · exact h.respond p _ _ _
      · next hrec =>
        obtain ⟨hx, -, -⟩ := State.recordOf_some hrec
        split
        · next hok => exact (h.freeAndPromote hx hok.1).respond p _ _ _
        · exact h.respond p _ _ _

theorem LeaseLaw.cmdLrev (h : LeaseLaw s) (p : Port) (index : Byte) : LeaseLaw (s.cmdLrev p index) := by
  unfold State.cmdLrev
  split
  · exact h.respond p _ _ _
  · split
    · exact h.respond p _ _ _
    · split
      · exact h.respond p _ _ _
      · exact (h.clearEntry _ _ _ _).respond p _ _ _

theorem BusEffect.directory {t : State} (h : BusEffect s t) : t.directory = s.directory :=
  congrArg (fun r => r.1.1) h.records

theorem LeaseLaw.bus (h : LeaseLaw s) {t : State} (ht : BusEffect s t) : LeaseLaw t := h.of_same ht.directory ht.leases

theorem LeaseLaw.cmdPrst (h : LeaseLaw s) (p : Port) (port : Byte) : LeaseLaw (s.cmdPrst p port) := by
  unfold State.cmdPrst
  split
  · exact h.respond p _ _ _
  · next q _ =>
    have hfreed := (h.bus (BusEffect.portReset s p q)).freeAllOwn q
    unfold State.portReset
    dsimp only
    generalize (if q = p then s.onPort q HostPort.clearRefusal else s.resetContext q).freeAllOwn q = u at hfreed
    exact hfreed.of_same rfl rfl

theorem LeaseLaw.cmdSrcv (h : LeaseLaw s) (p : Port) (segment : Byte) : LeaseLaw (s.cmdSrcv p segment) := by
  unfold State.cmdSrcv
  split
  · exact h.respond p _ _ _
  · next m _ =>
    split
    · exact h.respond p _ _ _
    · exact h.respond p _ _ _
    · exact (h.bus (BusEffect.forceRecovery s m)).respond p _ _ _

/-- Every command from its arguments step on. -/
theorem LeaseLaw.perform (h : LeaseLaw s) (p : Port) (c : Command) : LeaseLaw (s.perform p c) := by
  cases c with
  | insr => exact h.cmdInsr ..
  | delr => exact h.cmdDelr ..
  | modr => exact h.cmdModr ..
  | lacq => exact h.cmdLacq ..
  | lren => exact h.cmdLren ..
  | lrel => exact h.cmdLrel ..
  | lrev => exact h.cmdLrev ..
  | prst => exact h.cmdPrst ..
  | srcv => exact h.cmdSrcv ..
  | nfet => exact h.of_same rfl rfl
  | idnt => exact h.respond p _ _ _
  | _ =>
    simp only [State.perform, State.cmdRdrt, State.cmdDflt, State.cmdLqry, State.cmdScfg, State.cmdSsta, State.cmdPsta,
      State.cmdRght]
    repeat' split
    all_goals exact h.of_same rfl rfl

theorem LeaseLaw.reset (adr admSel : BitVec 2) : LeaseLaw (State.resetWith adr admSel) := by
  have hnone {i : Slot} {l : Lease} (h : (State.resetWith adr admSel).leases[i] = some l) : False := by
    rw [State.resetWith_leases] at h
    cases h
  exact leaseLaw_iff.2 ⟨fun e => .of_none fun i l h => (hnone h).elim, fun i l h => (hnone h).elim⟩

theorem LeaseLaw.tick (h : LeaseLaw s) : LeaseLaw s.tick := by
  obtain ⟨hentries, hlive⟩ := leaseLaw_iff.1 h
  refine leaseLaw_iff.2 ⟨fun e => (hentries e).of_shape (fun i l hl => ?_) fun i l hl => ?_, fun i l hl => ?_⟩
  · obtain ⟨k, hk, rfl⟩ := State.tick_leases_some.1 hl
    obtain ⟨hport, hentry, -, -, hheld, -, horder, -⟩ := k.tick_same
    exact ⟨k, hk, hport, hentry, hheld, horder⟩
  · exact ⟨l.tick, State.tick_leases_some.2 ⟨l, hl, rfl⟩⟩
  · obtain ⟨k, hk, rfl⟩ := State.tick_leases_some.1 hl
    obtain ⟨hport, hentry, hgen, -⟩ := k.tick_same
    have := hlive i k hk
    unfold State.Live State.route at this ⊢
    simp only [hport, hentry, hgen]
    exact this

end

/-- Settles O7: entry by entry, a request joins at the tail and leaves with those behind it moving forward, a holder that goes is
followed by the oldest request, and an entry is removed with its records. -/
theorem leaseLawKept : Obligations.LeaseLawKept := by
  unfold Obligations.LeaseLawKept
  refine keptByStep_of_exec (fun s rest h => h) (fun s h => h.tick) fun i s h => (exec_rowEffect i s).mono fun t ht => ?_
  cases ht with
  | bus ht => exact h.bus ht
  | command p c u hu ht => exact ht ▸ (h.bus hu).perform p c
  | answered p st echo u hu ht => exact ht ▸ (h.bus hu).respond p st echo []
  | expiry e x hx ht =>
    obtain ⟨i, x⟩ := x
    obtain ⟨hl, -, hheld⟩ := State.heldOn_some hx
    exact ht ▸ h.expireLease hl hheld
  | reset adr admSel ht => exact ht ▸ LeaseLaw.reset adr admSel

end Sys2Proof.Machine
end

section
/-! SUPPORT. O30, O24, O23 and O26 settled: promotion (R122), LACQ (R117, R118) and LREL with a token (R120). -/

namespace Sys2Proof.Machine

/-- The first index of a table that has a property. -/
theorem finRange_find?_eq_some {n : Nat} {f : Fin n → Bool} {i : Fin n} :
    (List.finRange n).find? f = some i ↔ f i = true ∧ ∀ j < i, f j = false := by
  rw [List.find?_eq_some_iff_getElem]
  constructor
  · rintro ⟨hi, k, hk, hki, hbefore⟩
    rw [List.getElem_finRange] at hki
    subst hki
    refine ⟨hi, fun j hj => ?_⟩
    have hjn : j.val < (List.finRange n).length := by simp
    have := hbefore j.val hj
    simpa using this
  · rintro ⟨hi, hbefore⟩
    refine ⟨hi, i.val, by simp, by simp, fun j hj => ?_⟩
    simpa using hbefore ⟨j, hj.trans i.isLt⟩ hj

/-! ### Promotion (R122) -/

/-- Settles O30: a promotion writes the slot of the oldest request, moves the others forward, and issues a token that no HELD
record has, since the slot itself holds none. -/
theorem promotionServesOldestRequest : Obligations.PromotionServesOldestRequest := by
  unfold Obligations.PromotionServesOldestRequest
  intro e s
  refine ⟨State.promote_none, fun i l r hfirst hr hcounter => ?_⟩
  obtain ⟨hi, -, hp, -⟩ := State.pendingAt_some hfirst
  have hfree : ∀ k, s.leases[i] = some k → k.isHeld = false := fun k hk => by
    rw [hi] at hk
    cases hk
    exact hp
  have hwritten : s.promote e = { s with
      leases := (s.promote e).leases
      tokenCounter := bumpToken s.tokenToIssue
      notices := tabUpd s.notices l.port (NoticeQueue.store .leaseGranted (some e) (some r.seg) s.tokenToIssue) } := by
    rw [State.promote_some hfirst, State.segOf_installed hr]
    simp only [State.post, State.onNotices, State.closeGap, State.afterIssue, State.setLease]
  refine ⟨s.tokenToIssue, (s.promote e).leases, hwritten, State.tokenToIssue_ne_zero hcounter, fun j x hx hheld htok => ?_, ?_,
    fun j hj o ho => ?_⟩
  · exact State.tokenToIssue_fresh hfree (State.mem_heldTokens.2 ⟨j, x, hx, hheld, htok⟩)
  · exact (State.promote_leases_some hfirst).2 (.inl ⟨rfl, by rw [State.clip_installed hr]⟩)
  · cases o with
    | none =>
      cases hx : (s.promote e).leases[j] with
      | none => rfl
      | some x =>
        obtain ⟨hij, -⟩ | ⟨-, y, hy, -⟩ := (State.promote_leases_some hfirst).1 hx
        · exact absurd hij.symm hj
        · rw [ho] at hy
          cases hy
    | some x => exact (State.promote_leases_some hfirst).2 (.inr ⟨hj.symm, x, ho, rfl⟩)

/-! ### LACQ (R117, R118) -/

section
variable {s : State} {p : Port} {e : EntryIx} {d : Half} (w : Bool)

theorem exec_lacq (hidle : s.ports[p].ctx = .idle) (hlease : s.rights[p].rights.lease = true) (index : Byte) (d : Half)
    (wait : Byte) : exec (.lacq p index d wait) s = .next (s.cmdLacq p index d wait) :=
  exec_row_permitted (c := .lacq index d wait) ⟨hidle, hlease⟩

theorem decodeLacq_bytes (e : EntryIx) (hd : d ≠ 0#16) : decodeLacq (entryByte e) d (flagByte w) = some (e, d.toNat, w) := by
  simp [decodeLacq, decodeDuration_of_ne hd]

theorem State.freeSlot?_eq_some {i : Slot} (hi : s.leases[i] = none) (hlow : ∀ j : Slot, j < i → s.leases[j] ≠ none) :
    s.freeSlot? = some i := by
  refine finRange_find?_eq_some.2 ⟨by rw [hi]; rfl, fun j hj => ?_⟩
  obtain ⟨l, hl⟩ := Option.ne_none_iff_exists'.1 (hlow j hj)
  rw [hl]
  rfl

theorem State.freeSlot?_eq_none (h : ∀ i : Slot, s.leases[i] ≠ none) : s.freeSlot? = none := by
  refine List.find?_eq_none.2 fun i _ => ?_
  obtain ⟨l, hl⟩ := Option.ne_none_iff_exists'.1 (h i)
  simp [hl]

/-- Step 1 of LACQ: the entry is FREE or not visible to the caller. -/
theorem State.cmdLacq_unseen (hd : d ≠ 0#16) (h : ¬ ∃ r, s.directory[e].route = some r ∧ hasPort r.vis p = true) :
    s.cmdLacq p (entryByte e) d (flagByte w) = s.respond p .noEntry 0x20#8 [] := by
  simp only [State.cmdLacq, decodeLacq_bytes w e hd]
  cases hr : s.route e with
  | none => rfl
  | some r =>
    have hvis : hasPort r.vis p = false := by
      by_contra hvis
      exact h ⟨r, hr, by simpa using hvis⟩
    simp only [hvis]
    rfl

variable {r : Route}

/-- Step 2: the caller has a record on the entry. -/
theorem State.cmdLacq_recorded (hd : d ≠ 0#16) (hr : s.directory[e].route = some r) (hvis : hasPort r.vis p = true)
    {i : Slot} {l : Lease} (hl : s.recordOf p e = some (i, l)) : s.cmdLacq p (entryByte e) d (flagByte w) =
      s.respond p .already 0x20#8 ([l.status.code, l.token] ++ halfBytes (roundUpMs l.remaining)) := by
  have hroute : s.route e = some r := hr
  simp only [State.cmdLacq, decodeLacq_bytes w e hd, hroute, hvis, hl]
  rfl

/-- Step 3: the caller's quota is used up. -/
theorem State.cmdLacq_quota (hd : d ≠ 0#16) (hr : s.directory[e].route = some r) (hvis : hasPort r.vis p = true)
    (hnone : s.recordOf p e = none) (hquota : s.rights[p].quota ≤ s.leaseCount p) :
    s.cmdLacq p (entryByte e) d (flagByte w) =
      s.respond p .quota 0x20#8 [countByte (s.leaseCount p), countByte s.rights[p].quota] := by
  have hroute : s.route e = some r := hr
  simp only [State.cmdLacq, decodeLacq_bytes w e hd, hroute, hvis, hnone, if_pos hquota]
  rfl

/-- Step 4: no slot is FREE. -/
theorem State.cmdLacq_full (hd : d ≠ 0#16) (hr : s.directory[e].route = some r) (hvis : hasPort r.vis p = true)
    (hnone : s.recordOf p e = none) (hquota : s.leaseCount p < s.rights[p].quota) (hfull : s.freeSlot? = none) :
    s.cmdLacq p (entryByte e) d (flagByte w) = s.respond p .tableFull 0x20#8 [] := by
  have hroute : s.route e = some r := hr
  simp only [State.cmdLacq, decodeLacq_bytes w e hd, hroute, hvis, hnone, if_neg (not_le.2 hquota), hfull]
  rfl

/-- Step 5 behind another port's lease. -/
theorem State.cmdLacq_behind (hd : d ≠ 0#16) (hr : s.directory[e].route = some r) (hvis : hasPort r.vis p = true)
    (hnone : s.recordOf p e = none) (hquota : s.leaseCount p < s.rights[p].quota) {i j : Slot} {h : Lease}
    (hfree : s.freeSlot? = some i) (hheld : s.heldOn e = some (j, h)) :
    s.cmdLacq p (entryByte e) d (flagByte w) =
      if w then (s.makeLease i p e d.toNat (.pending ((s.pendingPorts e).length + 1))).respond p .pending 0x20#8
          [entryByte e, countByte ((s.pendingPorts e).length + 1), portByte h.port]
      else s.respond p .heldElsewhere 0x20#8 [portByte h.port] := by
  have hroute : s.route e = some r := hr
  simp only [State.cmdLacq, decodeLacq_bytes w e hd, hroute, hvis, hnone, if_neg (not_le.2 hquota), hfree, hheld]
  rfl

/-- Step 5 on an unleased entry (R118). -/
theorem State.cmdLacq_grants (hd : d ≠ 0#16) (hr : s.directory[e].route = some r) (hvis : hasPort r.vis p = true)
    (hnone : s.recordOf p e = none) (hquota : s.leaseCount p < s.rights[p].quota) {i : Slot}
    (hfree : s.freeSlot? = some i) (hheld : s.heldOn e = none) :
    s.cmdLacq p (entryByte e) d (flagByte w) =
      ((s.makeLease i p e d.toNat (.held s.tokenToIssue (min d.toNat r.maxLease * Config.ticksPerMs))).afterIssue
        s.tokenToIssue).respond p .ok 0x20#8 ([entryByte e, s.tokenToIssue] ++ halfBytes (min d.toNat r.maxLease)) := by
  have hroute : s.route e = some r := hr
  simp only [State.cmdLacq, decodeLacq_bytes w e hd, hroute, hvis, hnone, if_neg (not_le.2 hquota), hfree, hheld,
    State.clip_installed hr]
  rfl

end

/-- Settles O24: the FREE slot that takes the record is one without a HELD record, so the token issued is new. -/
theorem lacqGrantsLease : Obligations.LacqGrantsLease := by
  unfold Obligations.LacqGrantsLease
  intro p e d w s r i hidle hlease hd hr hvis hnone hquota hi hlow hheld _
  obtain ⟨n, -, htok, htried, -⟩ := nextToken_skips s.heldTokens 16 s.tokenCounter
  refine ⟨n, s.tokenToIssue, ?_, htok, fun j l hl hlh hlt => ?_, fun k hk => State.mem_heldTokens.1 (htried k hk)⟩
  · rw [exec_lacq hidle hlease, State.cmdLacq_grants w hd hr hvis hnone hquota (State.freeSlot?_eq_some hi hlow) hheld]
    rfl
  · refine State.tokenToIssue_fresh (i := i) (fun k hk => ?_) (State.mem_heldTokens.2 ⟨j, l, hl, hlh, hlt⟩)
    rw [hi] at hk
    cases hk

/-- Settles O23, by the steps of LACQ in their order. -/
theorem lacqRefusesOrQueues : Obligations.LacqRefusesOrQueues := by
  unfold Obligations.LacqRefusesOrQueues
  intro p e d w s hidle hlease hd
  dsimp only
  rw [exec_lacq hidle hlease]
  refine ⟨fun hunseen => by rw [State.cmdLacq_unseen w hd hunseen], ?_, ?_⟩
  · rintro ⟨r, hr, hvis⟩ i l hl
    rw [State.cmdLacq_recorded w hd hr hvis hl]
    refine ⟨fun t n hst => ?_, fun k hst => ?_⟩
    · rw [Lease.token_of_held hst, Lease.remaining, hst]
      rfl
    · have hzero : halfBytes (roundUpMs 0) = [0x00#8, 0x00#8] := by decide
      simp only [Lease.token, Lease.remaining, hst, hzero]
      rfl
  · rintro ⟨r, hr, hvis⟩ hnone
    refine ⟨fun hquota => by rw [State.cmdLacq_quota w hd hr hvis hnone hquota]; rfl, fun hquota => ⟨fun hfull => ?_, ?_⟩⟩
    · rw [State.cmdLacq_full w hd hr hvis hnone hquota (State.freeSlot?_eq_none hfull)]
    · intro i hi hlow j h hheld
      rw [State.cmdLacq_behind w hd hr hvis hnone hquota (State.freeSlot?_eq_some hi hlow) hheld]
      constructor
      · rintro rfl
        rfl
      · rintro rfl
        rfl

/-! ### LREL with a token (R120) -/

theorem exec_lrel {p : Port} {s : State} (hidle : s.ports[p].ctx = .idle) (hlease : s.rights[p].rights.lease = true)
    (e : EntryIx) {token : Byte} (htok : token ≠ 0#8) :
    exec (.lrel p (entryByte e) token) s = .next (s.releaseLease p e token) := by
  have hrow : exec (.lrel p (entryByte e) token) s = s.commandRow p (.lrel (entryByte e) token) := rfl
  rw [hrow, commandRow_idle hidle, runCommand_permitted (c := .lrel (entryByte e) token) hlease]
  simp only [State.perform, State.cmdLrel, decodeEntry_entryByte, if_neg htok]

theorem State.releaseLease_stale {s : State} {p : Port} {e : EntryIx} {token : Byte} {i : Slot} {l : Lease}
    (h : s.recordOf p e = some (i, l)) (hstale : ¬(l.isHeld = true ∧ token = l.token)) :
    s.releaseLease p e token = s.respond p .stale 0x22#8 [] := by
  simp only [State.releaseLease, h, if_neg hstale]
  rfl

theorem State.releaseLease_held {s : State} {p : Port} {e : EntryIx} {i : Slot} {l : Lease}
    (h : s.recordOf p e = some (i, l)) (hheld : l.isHeld = true) :
    s.releaseLease p e l.token =
      ((s.setLease i none).promote e).respond p .ok 0x22#8 [entryByte e, portOrAbsent (s.promotee e)] := by
  obtain ⟨-, rfl, -⟩ := State.recordOf_some h
  simp only [State.releaseLease, h, hheld, and_self, if_true, State.freeAndPromote, State.freeRecord_held hheld]
  rfl

/-- The port a promotion would serve, as a byte. -/
theorem State.promotee_byte (s : State) (e : EntryIx) : portOrAbsent (s.promotee e) =
    match s.pendingAt e 1 with
    | some (_, k) => portByte k.port
    | none => 0xFF#8 := by
  unfold State.promotee
  cases s.pendingAt e 1 <;> rfl

/-- Settles O26, by the record that the caller has on the entry. -/
theorem lrelReleasesLease : Obligations.LrelReleasesLease := by
  unfold Obligations.LrelReleasesLease
  intro p e token s hidle hlease htok
  dsimp only
  rw [exec_lrel hidle hlease e htok]
  refine ⟨fun hnone => ?_, fun i l hl => ⟨fun k hk => ?_, fun t n ht => ?_⟩⟩
  · simp only [State.releaseLease, hnone]
    rfl
  · rw [State.releaseLease_stale hl]
    simp [Lease.isHeld_of_pending hk]
  · obtain rfl := Lease.token_of_held ht
    refine ⟨fun hne => ?_, fun heq => ?_⟩
    · rw [State.releaseLease_stale hl fun h => hne h.2]
    · rw [heq, State.releaseLease_held hl (Lease.isHeld_of_held ht), State.promotee_byte]
      rfl

end Sys2Proof.Machine
end

section
/-! SUPPORT. O12 and O2 settled: what device reset sets (R2, R55, R73, R104, R148), and that it meets every law. -/

namespace Sys2Proof.Machine

/-- Settles O12, table by table. -/
theorem deviceResetSetsEveryBlock : Obligations.DeviceResetSetsEveryBlock := by
  unfold Obligations.DeviceResetSetsEveryBlock
  intro adr admSel s
  have hrow (p : Port) : RightsRow.reset admSel p =
      { rights := ⟨p.val = admSel.toNat, true, p.val = admSel.toNat, p.val = admSel.toNat⟩, quota := 4 } := by
    unfold RightsRow.reset
    by_cases hp : p.val = admSel.toNat <;> simp [hp, Config.resetQuota]
  refine ⟨{ State.resetWith adr admSel with pending := s.pending }, rfl, fun p => ?_, fun e => ?_, fun m => ?_, fun i => ?_, rfl,
    rfl, rfl, rfl⟩
  · refine ⟨?_, ?_, ?_, ?_, ?_, ?_⟩
    · simp [State.resetWith, HostPort.reset]
    · simp [State.resetWith]
    · simp [State.resetWith, NoticeQueue.reset]
    · simp [State.resetWith, FrameBuffer.reset]
    · simp [State.resetWith, Response.reset]
    · rw [← hrow]
      simp [State.resetWith]
  · simp [State.resetWith, Entry.reset]
  · have hengine : ({ State.resetWith adr admSel with pending := s.pending } : State).engines[m] = Engine.reset := by
      simp [State.resetWith]
    rw [hengine]
    refine ⟨?_, rfl, rfl, rfl, rfl, rfl, rfl, rfl, rfl, rfl, rfl, rfl, rfl⟩
    simp [State.resetWith, Arbiter.reset, Config.resetWaitLimit, Config.resetHoldLimit]
  · exact State.resetWith_leases adr admSel i

/-- Settles O2: at reset there is no notice, no entry, no lease, no frame and no response, every port is IDLE and every segment
IDLE, and the strapped port holds every right. -/
theorem resetMeetsEveryLaw : Obligations.ResetMeetsEveryLaw := by
  unfold Obligations.ResetMeetsEveryLaw
  refine ⟨fun adr admSel => ?_, 0#2, 3#2, rfl⟩
  dsimp only
  have hnotices : NoticesLaw (State.resetWith adr admSel) := fun p => by
    have hqueue : (State.resetWith adr admSel).notices[p] = NoticeQueue.reset := by simp [State.resetWith]
    rw [hqueue]
    exact NoticeQueue.lawful_empty 0#8
  have hdirectory : DirectoryLaw (State.resetWith adr admSel) :=
    .of_free fun e => by simp [State.route, State.resetWith, Entry.reset]
  exact ⟨hnotices, RightsLaw.reset adr admSel, hdirectory, TokenLaw.reset adr admSel, LeaseLaw.reset adr admSel,
    RemainingLaw.reset adr admSel, BufferLaw.reset adr admSel, ResponseLaw.reset adr admSel, RelayLaw.reset adr admSel⟩

end Sys2Proof.Machine
end

section
/-! SUPPORT. The frames of the 18 commands, read and written (R158, R159). -/

namespace Sys2Proof.Machine

theorem hiByte_halfOf (a b : Byte) : hiByte (halfOf a b) = a := by
  have ha := a.isLt
  have hb := b.isLt
  apply BitVec.eq_of_toNat_eq
  simp only [hiByte, halfOf, BitVec.toNat_ofNat]
  omega

theorem loByte_halfOf (a b : Byte) : loByte (halfOf a b) = b := by
  have ha := a.isLt
  have hb := b.isLt
  apply BitVec.eq_of_toNat_eq
  simp only [loByte, halfOf, BitVec.toNat_ofNat]
  omega

/-- No byte of a frame is dropped: the command that is read has the code and the argument bytes it was read from. -/
theorem buildCommand_some {op : Op} {args : List Byte} {c : Command} (h : buildCommand op args = some c) :
    c.op = op ∧ c.args = args := by
  rcases args with _ | ⟨a₁, _ | ⟨a₂, _ | ⟨a₃, _ | ⟨a₄, _ | ⟨a₅, _ | ⟨a₆, _ | ⟨a₇, _ | ⟨a₈, _ | ⟨a₉, _ | ⟨a₁₀, _ | ⟨a₁₁, rest⟩⟩⟩⟩⟩⟩⟩⟩⟩⟩⟩ <;>
    cases op <;> cases h <;> exact ⟨rfl, by simp only [Command.args, hiByte_halfOf, loByte_halfOf]⟩

/-- Argument bytes in the number that the command asks for are read as a command. -/
theorem buildCommand_of_length : ∀ {op : Op} {args : List Byte}, args.length + 1 = frameLength op →
    ∃ c, buildCommand op args = some c
  | .insr, [_, _, _, _, _, _, _, _, _, _], _ => ⟨_, rfl⟩
  | .modr, [_, _, _, _, _, _], _ => ⟨_, rfl⟩
  | .scfg, [_, _, _, _, _], _ => ⟨_, rfl⟩
  | .lacq, [_, _, _, _], _ => ⟨_, rfl⟩
  | .lren, [_, _, _, _], _ => ⟨_, rfl⟩
  | .rght, [_, _, _], _ => ⟨_, rfl⟩
  | .dflt, [_, _], _ => ⟨_, rfl⟩
  | .lrel, [_, _], _ => ⟨_, rfl⟩
  | .delr, [_], _ => ⟨_, rfl⟩
  | .rdrt, [_], _ => ⟨_, rfl⟩
  | .lrev, [_], _ => ⟨_, rfl⟩
  | .lqry, [_], _ => ⟨_, rfl⟩
  | .ssta, [_], _ => ⟨_, rfl⟩
  | .srcv, [_], _ => ⟨_, rfl⟩
  | .psta, [_], _ => ⟨_, rfl⟩
  | .prst, [_], _ => ⟨_, rfl⟩
  | .nfet, [], _ => ⟨_, rfl⟩
  | .idnt, [], _ => ⟨_, rfl⟩

theorem buildCommand_none {op : Op} {args : List Byte} :
    buildCommand op args = none ↔ args.length + 1 ≠ frameLength op := by
  constructor
  · intro hnone hlength
    obtain ⟨c, hc⟩ := buildCommand_of_length hlength
    rw [hnone] at hc
    cases hc
  · intro hlength
    cases hb : buildCommand op args with
    | none => rfl
    | some c =>
      obtain ⟨hop, hargs⟩ := buildCommand_some hb
      exact absurd (by simpa [Command.frame, hop, hargs] using frame_length c) hlength

theorem opOfCode_none {b : Byte} : opOfCode b = none ↔
    b ∉ [0x10#8, 0x11#8, 0x12#8, 0x13#8, 0x14#8, 0x20#8, 0x21#8, 0x22#8, 0x23#8, 0x24#8, 0x30#8, 0x31#8, 0x32#8, 0x40#8,
      0x50#8, 0x51#8, 0x52#8, 0x53#8] := by
  have hcodes : allOps.map opCode = [0x10#8, 0x11#8, 0x12#8, 0x13#8, 0x14#8, 0x20#8, 0x21#8, 0x22#8, 0x23#8, 0x24#8, 0x30#8,
      0x31#8, 0x32#8, 0x40#8, 0x50#8, 0x51#8, 0x52#8, 0x53#8] := rfl
  rw [← hcodes]
  simp [opOfCode, List.find?_eq_none]

/-- Settles O13: a frame's length decides whether it is read, and every byte of it stands in the command read. -/
theorem framesDecodeBack : Obligations.FramesDecodeBack := by
  unfold Obligations.FramesDecodeBack
  refine ⟨fun c => ⟨opOfCode_opCode _, frame_length c, buildCommand_args c⟩, fun op args => ⟨fun c hc => ?_, buildCommand_none⟩,
    fun b => opOfCode_none⟩
  obtain ⟨hop, hargs⟩ := buildCommand_some hc
  rw [Command.frame, hop, hargs]

end Sys2Proof.Machine
end

section
/-! SUPPORT. A frame taken at the end of a write to the own address (R143, R144): as its command's row, or as malformed. -/

namespace Sys2Proof.Machine

theorem exec_stop_commandIn {s : State} {p : Port} (hctx : s.ports[p].ctx = .commandIn) (hclock : s.ports[p].clockHeld = false) :
    exec (.stop p) s = .next ((s.onPort p (HostPort.toIdle false)).takeFrame p) := by
  simp only [exec, execStop, hctx, hclock]; rfl

theorem startCondition_commandIn {s : State} {p : Port} (hctx : s.ports[p].ctx = .commandIn)
    (hclock : s.ports[p].clockHeld = false) :
    s.startCondition p = .next ((s.onPort p (HostPort.toIdle true)).takeFrame p) := by
  simp only [State.startCondition, hctx, hclock]; rfl

/-- An event that ends a frame leaves its port IDLE, with an address byte expected or not, and takes the frame. -/
theorem exec_frameEnd {s : State} {p : Port} (hctx : s.ports[p].ctx = .commandIn) (hclock : s.ports[p].clockHeld = false)
    {i : Instr} {expected : Bool}
    (hi : i = .stop p ∧ expected = false ∨ (i = .repeatedStart p ∨ i = .start p) ∧ expected = true) :
    exec i s = .next ((s.onPort p (HostPort.toIdle expected)).takeFrame p) := by
  rcases hi with ⟨rfl, rfl⟩ | ⟨rfl | rfl, rfl⟩
  · exact exec_stop_commandIn hctx hclock
  · exact startCondition_commandIn hctx hclock
  · exact startCondition_commandIn hctx hclock

/-- The frame of a command taken on a port just left IDLE is the command's row there. -/
theorem takeFrame_row {s : State} {p : Port} {c : Command} (expected : Bool)
    (hframe : s.buffers[p] = { bytes := c.frame, overlong := false }) :
    exec (c.row p) ((s.onPort p (HostPort.toIdle expected)).onBuffer p (fun _ => { bytes := [], overlong := false })) =
      .next ((s.onPort p (HostPort.toIdle expected)).takeFrame p) := by
  have hidle : ((s.onPort p (HostPort.toIdle expected)).onBuffer p (fun _ => { bytes := [], overlong := false })).ports[p].ctx =
      .idle := by
    simp [HostPort.toIdle]
  rw [exec_row, commandRow_idle hidle, takeFrame_frame (c := c) (by simpa using hframe)]
  rfl

/-- Settles O14: both sides take the frame on the port left IDLE. -/
theorem takenFrameRunsItsCommand : Obligations.TakenFrameRunsItsCommand := by
  unfold Obligations.TakenFrameRunsItsCommand
  intro p c s hctx hclock hframe
  refine ⟨?_, fun i hi => ?_⟩
  · rw [takeFrame_row false hframe, exec_frameEnd hctx hclock (.inl ⟨rfl, rfl⟩)]
  · rw [takeFrame_row true hframe, exec_frameEnd hctx hclock (.inr ⟨hi, rfl⟩)]

theorem takeFrame_empty {s : State} {p : Port} (h : s.buffers[p].bytes = []) :
    s.takeFrame p = s.onBuffer p (fun _ => FrameBuffer.reset) := by
  simp only [State.takeFrame, h]

theorem takeFrame_badCommand {s : State} {p : Port} {code : Byte} {args : List Byte} (h : s.buffers[p].bytes = code :: args)
    (hcode : opOfCode code = none) :
    s.takeFrame p = (s.onBuffer p (fun _ => FrameBuffer.reset)).respond p .badCommand code [] := by
  simp only [State.takeFrame, h, hcode]

theorem takeFrame_badLength {s : State} {p : Port} {op : Op} {args : List Byte} (h : s.buffers[p].bytes = opCode op :: args)
    (hlength : s.buffers[p].overlong = true ∨ args.length + 1 ≠ frameLength op) :
    s.takeFrame p = (s.onBuffer p (fun _ => FrameBuffer.reset)).respond p .badLength (opCode op) [] := by
  cases ho : s.buffers[p].overlong with
  | true => simp only [State.takeFrame, h, ho, opOfCode_opCode, if_pos]
  | false =>
    have hnone : buildCommand op args = none := buildCommand_none.2 (hlength.resolve_left (by rw [ho]; decide))
    simp only [State.takeFrame, h, ho, opOfCode_opCode, hnone]; rfl

/-- Settles O15: the code and length steps come before the command is read. -/
theorem malformedFramesAnswered : Obligations.MalformedFramesAnswered := by
  unfold Obligations.MalformedFramesAnswered
  refine fun p s => ⟨fun hctx hclock i expected hi => ?_, fun code hidle hcode => by
    simp only [exec, execBadCommand, hidle, hcode]; rfl⟩
  rw [exec_frameEnd hctx hclock hi]
  refine ⟨fun hempty => ?_, fun code args hbytes hcode => ?_, fun op args hbytes hlength => ?_⟩
  · rw [takeFrame_empty (by simpa using hempty)]; rfl
  · rw [takeFrame_badCommand (by simpa using hbytes) hcode]; rfl
  · rw [takeFrame_badLength (by simpa using hbytes) (by simpa using hlength)]; rfl

end Sys2Proof.Machine
end

section
/-! SUPPORT. The arguments step of each command (R144 step 4) reads its bytes exactly when the argument rules allow them. -/

namespace Sys2Proof.Machine

/-- The arguments step of the command reads its argument bytes. -/
def Command.argumentsRead : Command → Bool
  | .insr a b c d e f g h i => (decodeInsr a b c d e f g h i).isSome
  | .delr a => (decodeEntry a).isSome
  | .modr a b c d e => (decodeModr a b c d e).isSome
  | .rdrt a => (decodeEntry a).isSome
  | .dflt a b => (decodeDflt a b).isSome
  | .lacq a b c => (decodeLacq a b c).isSome
  | .lren a _ c => (decodeLren a c).isSome
  | .lrel a _ => (decodeEntry a).isSome
  | .lrev a => (decodeEntry a).isSome
  | .lqry a => (decodeEntry a).isSome
  | .scfg a b c d e => (decodeScfg a b c d e).isSome
  | .ssta a => (decodeSeg a).isSome
  | .srcv a => (decodeSeg a).isSome
  | .nfet => true
  | .psta a => (decodePort a).isSome
  | .rght a b c => (decodeRght a b c).isSome
  | .prst a => (decodePort a).isSome
  | .idnt => true

/-- A byte without a bit outside another is at most that other. -/
theorem toNat_le_of_andNot {a b : Byte} (h : a &&& ~~~b = 0#8) : a.toNat ≤ b.toNat := by
  have hpart : a &&& b = a := by
    ext i hi
    have hbit := congrArg (fun x : Byte => x[i]) h
    simp only [BitVec.getElem_and, BitVec.getElem_not, BitVec.getElem_zero] at hbit ⊢
    cases ha : a[i] <;> cases hb : b[i] <;> simp_all
  rw [← hpart, BitVec.toNat_and]
  exact Nat.and_le_right

/-- Masks within the four ports: the rule of R28 on bytes is the model's on masks. -/
theorem masksOk_iff : ∀ v w : PortMask, masksOk v w = true ↔ v.setWidth 8 ≠ 0#8 ∧ w.setWidth 8 &&& ~~~(v.setWidth 8) = 0#8 := by
  decide

theorem decodeMask_some {b : Byte} {v : PortMask} (h : decodeMask b = some v) : v.setWidth 8 = b := by
  unfold decodeMask at h
  split at h
  · cases h
    apply BitVec.eq_of_toNat_eq
    simp only [BitVec.toNat_setWidth, BitVec.toNat_ofNat]
    omega
  · cases h

theorem not_masksRefused_iff {vis wp : Byte} : ¬ MasksRefused vis wp ↔
    ∃ v w, decodeMask vis = some v ∧ decodeMask wp = some w ∧ masksOk v w = true := by
  unfold MasksRefused
  refine Iff.symm ⟨?_, ?_⟩
  · rintro ⟨v, w, hv, hw, hok⟩
    obtain ⟨hne, hpart⟩ := (masksOk_iff v w).1 hok
    rw [decodeMask_some hv] at hne hpart
    rw [decodeMask_some hw] at hpart
    have hvis : vis.toNat ≤ 15 := Nat.not_lt.1 fun hbig => by rw [decodeMask_none.2 hbig] at hv; cases hv
    exact fun hrefused => hrefused.elim hne fun h => h.elim (Nat.not_lt.2 hvis) (absurd hpart)
  · intro hok
    simp only [not_or, Nat.not_lt, not_not] at hok
    obtain ⟨hne, hvis, hpart⟩ := hok
    have hwp := (toNat_le_of_andNot hpart).trans hvis
    obtain ⟨v, hv⟩ := Option.ne_none_iff_exists'.1 (fun h => absurd (decodeMask_none.1 h) (Nat.not_lt.2 hvis))
    obtain ⟨w, hw⟩ := Option.ne_none_iff_exists'.1 (fun h => absurd (decodeMask_none.1 h) (Nat.not_lt.2 hwp))
    refine ⟨v, w, hv, hw, (masksOk_iff v w).2 ?_⟩
    rw [decodeMask_some hv, decodeMask_some hw]
    exact ⟨hne, hpart⟩

theorem decodeSpan_some {b : Byte} {sp : Span} (h : decodeSpan b = some sp) : sp.size = b.toNat := by
  unfold decodeSpan at h
  repeat' split at h
  all_goals cases h
  all_goals simp_all [Span.size]

theorem decodeAddr_some {b : Byte} {a : Addr} (h : decodeAddr b = some a) : a.toNat = b.toNat := by
  unfold decodeAddr at h
  split at h
  · cases h
    simp only [BitVec.toNat_ofNat]
    omega
  · cases h

/-- A base of bytes that are read is aligned exactly when its span divides it. -/
theorem aligned_decoded {base span : Byte} {a : Addr} {sp : Span} (ha : decodeAddr base = some a) (hs : decodeSpan span = some sp) :
    aligned a sp = true ↔ span.toNat ∣ base.toNat := by
  simp [aligned, decodeAddr_some ha, decodeSpan_some hs, Nat.dvd_iff_mod_eq_zero]

theorem decodeInsr_isSome {index vb span seg tb vis wp mode : Byte} {ml : Half} :
    (decodeInsr index vb span seg tb vis wp mode ml).isSome = true ↔
      ¬ ArgumentsRefused (.insr index vb span seg tb vis wp mode ml) := by
  simp only [ArgumentsRefused, not_or, not_masksRefused_iff, ← decodeEntry_none, ← decodeSpan_none, ← decodeSeg_none,
    ← decodeAddr_none, ← decodeMode_none, ← decodeDuration_none, not_not, Option.isSome_iff_ne_none, decodeInsr, bind]
  cases hindex : decodeEntry index with
  | none => simp
  | some e =>
    cases hspan : decodeSpan span with
    | none => simp
    | some sp =>
      cases hvb : decodeAddr vb with
      | none => simp
      | some b =>
        cases htb : decodeAddr tb with
        | none => simp
        | some t =>
          rw [← aligned_decoded hvb hspan, ← aligned_decoded htb hspan]
          cases decodeSeg seg <;> cases decodeMask vis <;> cases decodeMask wp <;> cases decodeMode mode <;>
            cases decodeDuration ml <;> simp [and_assoc]

theorem decodeModr_isSome {index vis wp mode : Byte} {ml : Half} :
    (decodeModr index vis wp mode ml).isSome = true ↔ ¬ ArgumentsRefused (.modr index vis wp mode ml) := by
  simp only [ArgumentsRefused, not_or, not_masksRefused_iff, ← decodeEntry_none, ← decodeMode_none, ← decodeDuration_none,
    Option.isSome_iff_ne_none, decodeModr, bind]
  cases decodeEntry index <;> cases decodeMask vis <;> cases decodeMask wp <;> cases decodeMode mode <;>
    cases decodeDuration ml <;> simp

theorem decodeScfg_isSome {segment enable shared waitLimit holdLimit : Byte} :
    (decodeScfg segment enable shared waitLimit holdLimit).isSome = true ↔
      ¬ ArgumentsRefused (.scfg segment enable shared waitLimit holdLimit) := by
  have hwait : waitLimit ≠ 0#8 ↔ waitLimit.toNat ≠ 0 := not_congr BitVec.toNat_inj.symm
  simp only [ArgumentsRefused, not_or, ← decodeSeg_none, ← decodeFlag_none, Option.isSome_iff_ne_none, decodeScfg, bind, hwait]
  cases decodeSeg segment <;> cases decodeFlag enable <;> cases decodeFlag shared <;> simp

/-- The arguments step reads what the argument rules of R28 to R158 allow, and nothing else. -/
theorem Command.argumentsRead_iff (c : Command) : c.argumentsRead = true ↔ ¬ ArgumentsRefused c := by
  cases c with
  | insr a b c d e f g h i => exact decodeInsr_isSome
  | modr a b c d e => exact decodeModr_isSome
  | scfg a b c d e => exact decodeScfg_isSome
  | dflt a b =>
    simp only [argumentsRead, ArgumentsRefused, ← decodePort_none, ← decodeDefault_none, decodeDflt, bind]
    cases decodePort a <;> cases decodeDefault b <;> simp
  | lacq a b c =>
    simp only [argumentsRead, ArgumentsRefused, ← decodeEntry_none, ← decodeDuration_none, ← decodeFlag_none, decodeLacq, bind]
    cases decodeEntry a <;> cases decodeDuration b <;> cases decodeFlag c <;> simp
  | lren a b c =>
    simp only [argumentsRead, ArgumentsRefused, ← decodeEntry_none, ← decodeDuration_none, decodeLren, bind]
    cases decodeEntry a <;> cases decodeDuration c <;> simp
  | rght a b c =>
    simp only [argumentsRead, ArgumentsRefused, ← decodePort_none, ← decodeRights_none, decodeRght, bind]
    cases decodePort a <;> cases decodeRights b <;> simp
  | ssta a | srcv a => simp only [argumentsRead, ArgumentsRefused, ← decodeSeg_none, Option.isSome_iff_ne_none, ne_eq]
  | psta a | prst a => simp only [argumentsRead, ArgumentsRefused, ← decodePort_none, Option.isSome_iff_ne_none, ne_eq]
  | delr a | rdrt a | lrev a | lqry a | lrel a =>
    simp only [argumentsRead, ArgumentsRefused, ← decodeEntry_none, Option.isSome_iff_ne_none, ne_eq]
  | nfet | idnt => simp [argumentsRead, ArgumentsRefused]

/-- A command whose bytes its arguments step does not read is answered BAD_ARGUMENT. -/
theorem State.perform_unread {c : Command} (hc : c.argumentsRead = false) (s : State) (p : Port) :
    s.perform p c = s.badArgument p c.op := by
  cases c with
  | nfet | idnt => cases hc
  | _ =>
    simp only [Command.argumentsRead, Option.isSome_eq_false_iff, Option.isNone_iff_eq_none] at hc
    simp only [State.perform, State.cmdInsr, State.cmdDelr, State.cmdModr, State.cmdRdrt, State.cmdDflt, State.cmdLacq,
      State.cmdLren, State.cmdLrel, State.cmdLrev, State.cmdLqry, State.cmdScfg, State.cmdSsta, State.cmdSrcv, State.cmdPsta,
      State.cmdRght, State.cmdPrst, hc, Command.op]

/-- The last change that led to `t` is a response on port `p` of another status than BAD_ARGUMENT. -/
def TakesArguments (p : Port) (t : State) : Prop :=
  ∃ (u : State) (st : Status) (echo : Byte) (payload : List Byte), st ≠ .badArgument ∧ t = u.respond p st echo payload

theorem takesArguments_respond {u : State} {p : Port} {st : Status} {echo : Byte} {payload : List Byte}
    (h : st ≠ .badArgument) : TakesArguments p (u.respond p st echo payload) :=
  ⟨u, st, echo, payload, h, rfl⟩

theorem TakesArguments.status {p : Port} {t : State} (h : TakesArguments p t) : t.responses[p].status ≠ .badArgument := by
  obtain ⟨u, st, echo, payload, hst, rfl⟩ := h
  simpa using hst

theorem State.cmdLrel_takesArguments {s : State} {p : Port} {index token : Byte} {e : EntryIx} (he : decodeEntry index = some e) :
    TakesArguments p (s.cmdLrel p index token) := by
  simp only [State.cmdLrel, he, State.cancelLease, State.releaseLease]
  repeat' split
  all_goals exact takesArguments_respond (by decide)

theorem State.cmdScfg_takesArguments {s : State} {p : Port} {a b c d e : Byte} {x : Seg × SegConfig}
    (hx : decodeScfg a b c d e = some x) : TakesArguments p (s.cmdScfg p a b c d e) := by
  simp only [State.cmdScfg, hx]
  refine takesArguments_respond ?_
  split <;> decide

/-- A command whose bytes its arguments step reads is answered otherwise: each branch from there on ends in a response of its
own. -/
theorem State.perform_read {c : Command} (hc : c.argumentsRead = true) (s : State) (p : Port) :
    TakesArguments p (s.perform p c) := by
  cases c with
  | nfet | idnt => exact takesArguments_respond (by decide)
  | lrel a b =>
    obtain ⟨e, he⟩ := Option.isSome_iff_exists.1 hc
    exact State.cmdLrel_takesArguments he
  | scfg a b c d e =>
    obtain ⟨x, hx⟩ := Option.isSome_iff_exists.1 hc
    exact State.cmdScfg_takesArguments hx
  | _ =>
    obtain ⟨x, hx⟩ := Option.isSome_iff_exists.1 hc
    simp only [State.perform, State.cmdInsr, State.cmdDelr, State.cmdModr, State.cmdRdrt, State.cmdDflt, State.cmdLacq,
      State.cmdLren, State.cmdLrev, State.cmdLqry, State.cmdSsta, State.cmdSrcv, State.cmdPsta, State.cmdRght,
      State.cmdPrst, hx]
    repeat' split
    all_goals exact takesArguments_respond (by decide)

/-- Settles O17: the arguments step reads the bytes or answers BAD_ARGUMENT, and no later step answers that. -/
theorem argumentsStepDecides : Obligations.ArgumentsStepDecides := by
  unfold Obligations.ArgumentsStepDecides
  intro c p s hmay
  refine ⟨_, exec_row_permitted hmay, ?_⟩
  have hrules := c.argumentsRead_iff
  cases hc : c.argumentsRead with
  | false =>
    have hrefused : ArgumentsRefused c := by rw [hc] at hrules; exact not_not.1 (fun h => absurd (hrules.2 h) (by decide))
    rw [State.perform_unread hc]
    exact ⟨iff_of_true (by simp [State.badArgument]) hrefused, fun _ => rfl⟩
  | true =>
    have hallowed := hrules.1 hc
    exact ⟨iff_of_false (State.perform_read hc s p).status hallowed, fun h => absurd h hallowed⟩

end Sys2Proof.Machine
end

section
/-! SUPPORT. O18 settled: the install command INSR (R28 to R31). -/

namespace Sys2Proof.Machine

section
variable {s : State} {p : Port} {e : EntryIx} {r : Route}

theorem decodeInsr_bytes (e : EntryIx) (hv : aligned r.vbase r.span = true) (ht : aligned r.tbase r.span = true)
    (hm : masksOk r.vis r.wp = true) (h₁ : 1 ≤ r.maxLease) (h₂ : r.maxLease ≤ 65535) :
    decodeInsr (entryByte e) (addrByte r.vbase) (countByte r.span.size) (segByte r.seg) (addrByte r.tbase) (maskByte r.vis)
      (maskByte r.wp) (modeByte r.mode) (BitVec.ofNat 16 r.maxLease) = some (e, r) := by
  simp [decodeInsr, decodeDuration_ofNat h₁ h₂, hv, ht, hm]

theorem Span.base_inRange (b : Addr) (sp : Span) : inRange b sp b = true :=
  (inRange_iff b sp b).2 ⟨le_refl _, Nat.lt_add_of_pos_right sp.size_pos⟩

/-- A range lies in 0x08 to 0x77 when its end does and none of its addresses is lower. -/
theorem rangeFree_iff {b : Addr} {sp : Span} :
    rangeFree b sp = true ↔ b.toNat + sp.size ≤ 0x78 ∧ ∀ a, inRange b sp a = true → 0x08 ≤ a.toNat := by
  simp only [rangeFree, Bool.and_eq_true, decide_eq_true_eq]
  constructor
  · rintro ⟨hlow, hend⟩
    exact ⟨hend, fun a ha => hlow.trans ((inRange_iff b sp a).1 ha).1⟩
  · rintro ⟨hend, hlow⟩
    exact ⟨hlow b (sp.base_inRange b), hend⟩

/-- The checks of R29 on the ranges, address by address. -/
theorem State.addressesFree_iff : s.addressesFree r = true ↔
    r.vbase.toNat + r.span.size ≤ 0x78 ∧ r.tbase.toNat + r.span.size ≤ 0x78 ∧
      ∀ a, (inRange r.vbase r.span a = true → 0x08 ≤ a.toNat ∧ a ≠ s.ownAddr) ∧
        (inRange r.tbase r.span a = true → 0x08 ≤ a.toNat) := by
  simp only [State.addressesFree, Bool.and_eq_true, rangeFree_iff, Bool.not_eq_true']
  constructor
  · rintro ⟨⟨⟨hvend, hv⟩, hown⟩, htend, ht⟩
    refine ⟨hvend, htend, fun a => ⟨fun ha => ⟨hv a ha, ?_⟩, ht a⟩⟩
    rintro rfl
    rw [ha] at hown
    cases hown
  · rintro ⟨hvend, htend, h⟩
    refine ⟨⟨⟨hvend, fun a ha => ((h a).1 ha).1⟩, ?_⟩, htend, fun a => (h a).2⟩
    exact Bool.eq_false_iff.2 fun hown => ((h s.ownAddr).1 hown).2 rfl

/-- Entry `i` is INSTALLED, is not `e`, and meets a condition of R30 with the route `r`. -/
def State.InConflict (s : State) (e : EntryIx) (r : Route) (i : EntryIx) : Prop :=
  i ≠ e ∧ ∃ o, s.directory[i].route = some o ∧
    ((∃ q, hasPort r.vis q = true ∧ hasPort o.vis q = true) ∧
        (∃ a, inRange r.vbase r.span a = true ∧ inRange o.vbase o.span a = true) ∨
      r.seg = o.seg ∧ ∃ a, inRange r.tbase r.span a = true ∧ inRange o.tbase o.span a = true)

theorem State.inConflict_iff {i : EntryIx} : s.InConflict e r i ↔ (i ≠ e && match s.route i with
    | some o => visibleConflict r o || targetConflict r o
    | none => false) = true := by
  rw [State.InConflict, Bool.and_eq_true, decide_eq_true_eq]
  refine and_congr_right fun _ => ?_
  cases ho : s.route i with
  | none =>
    rw [State.route] at ho
    simp only [ho, reduceCtorEq, false_and, exists_false, Bool.false_eq_true]
  | some o =>
    rw [State.route] at ho
    simp only [ho, Option.some.injEq, exists_eq_left', Bool.or_eq_true, visibleConflict_iff, targetConflict_iff]

theorem State.insrConflict_some {i : EntryIx} (hi : s.InConflict e r i) (hlow : ∀ j, j < i → ¬ s.InConflict e r j) :
    s.insrConflict e r = some i :=
  finRange_find?_eq_some.2
    ⟨State.inConflict_iff.1 hi, fun j hj => Bool.eq_false_iff.2 fun h => hlow j hj (State.inConflict_iff.2 h)⟩

theorem State.insrConflict_clear (h : ∀ i, ¬ s.InConflict e r i) : s.insrConflict e r = none :=
  List.find?_eq_none.2 fun i _ hi => h i (State.inConflict_iff.2 hi)

end

/-- Settles O18: the checks of R29 to R31 in their order, the conflicts searched from entry 0 up. -/
theorem insrInstallsOrRefuses : Obligations.InsrInstallsOrRefuses := by
  unfold Obligations.InsrInstallsOrRefuses
  intro p e r s hidle hright hv ht hm h₁ h₂ conflict free run
  have hrun : run = .next (s.cmdInsr p (entryByte e) (addrByte r.vbase) (countByte r.span.size) (segByte r.seg)
      (addrByte r.tbase) (maskByte r.vis) (maskByte r.wp) (modeByte r.mode) (BitVec.ofNat 16 r.maxLease)) :=
    exec_row_permitted (c := .insr _ _ _ _ _ _ _ _ _) ⟨hidle, hright⟩
  simp only [State.cmdInsr, decodeInsr_bytes e hv ht hm h₁ h₂] at hrun
  rw [hrun]
  refine ⟨fun hinstalled => ?_, fun hnone hbusy => ?_, fun hnone hfree => ⟨fun i hi hlow => ?_, fun hclear => ?_⟩⟩
  · exact congrArg Host.Outcome.next (if_pos hinstalled)
  · have hchecks : s.addressesFree r = false := Bool.eq_false_iff.2 fun h => hbusy (State.addressesFree_iff.1 h)
    simp only [State.route, hnone, hchecks]
    rfl
  · have hchecks : s.addressesFree r = true := State.addressesFree_iff.2 hfree
    simp only [State.route, hnone, hchecks, State.insrConflict_some (s := s) hi hlow]
    rfl
  · have hchecks : s.addressesFree r = true := State.addressesFree_iff.2 hfree
    simp only [State.route, hnone, hchecks, State.insrConflict_clear (s := s) hclear]
    rfl

end Sys2Proof.Machine
end

section
/-! SUPPORT. O1 settled: the step, the tick, and the expiries that are due (log entries 2 and 3). -/

namespace Sys2Proof.Machine

/-- A timer is due when its limit is reached within the coming tick. -/
theorem Timer.due_iff {x : Timer} : x.due = true ↔ ∃ limit n, x = .running limit n ∧ limit ≤ n + 1 := by
  cases x with
  | stopped => simp [Timer.due]
  | running limit n => simp [Timer.due]

theorem Timer.tick_iterate (limit k : Nat) : Timer.tick^[k] (.running limit 0) = .running limit k := by
  induction k with
  | zero => rfl
  | succ k ih => rw [Function.iterate_succ_apply', ih]; rfl

section
variable {s : State}

theorem State.abandonExpiry_due {p : Port} : .abandonExpiry p ∈ s.dueExpiries ↔ s.ports[p].abandon.due = true := by
  simp [State.dueExpiries, allPorts]

theorem State.waitExpiry_due {p : Port} : .waitExpiry p ∈ s.dueExpiries ↔ s.waitDue p = true := by
  simp [State.dueExpiries, allPorts]

theorem State.holdTimerExpiry_due {m : Seg} : .holdTimerExpiry m ∈ s.dueExpiries ↔ s.engines[m].hold.due = true := by
  simp [State.dueExpiries]

theorem State.leaseExpiry_due {e : EntryIx} : .leaseExpiry e ∈ s.dueExpiries ↔ ∃ i, s.leaseDue i = some e := by
  simp [State.dueExpiries, allSlots]

theorem State.tick_segs (s : State) (m : Seg) :
    s.tick.segs[m] = { s.segs[m] with waits := tabMap s.segs[m].waits Timer.tick } := by
  simp only [State.tick, Fin.getElem_fin, tabMap_getElem]

/-- A wait is due where the segment that its port's transfer names counts it to its limit. -/
theorem State.waitDue_iff {p : Port} : s.waitDue p = true ↔
    ∃ t, (s.ports[p].ctx = .waiting t ∨ s.ports[p].ctx = .addressing t) ∧ s.segs[t.snap.seg].waits[p].due = true := by
  unfold State.waitDue
  split
  next t ht => simp only [ht, Ctx.waiting.injEq, reduceCtorEq, or_false, exists_eq_left']
  next t ht => simp only [ht, Ctx.addressing.injEq, reduceCtorEq, false_or, exists_eq_left']
  next hwaiting haddressing =>
    refine iff_of_false (by decide) ?_
    rintro ⟨t, ht | ht, -⟩
    · exact hwaiting t ht
    · exact haddressing t ht

theorem State.leaseDue_iff {i : Slot} {e : EntryIx} : s.leaseDue i = some e ↔
    ∃ l, s.leases[i] = some l ∧ l.entry = e ∧ ∃ token n, l.status = .held token n ∧ n ≤ 1 := by
  unfold State.leaseDue
  cases hl : s.leases[i] with
  | none => simp
  | some l =>
    cases hstatus : l.status with
    | held token n => simp [Lease.due, hstatus, and_comm]
    | pending k => simp [Lease.due, hstatus]

theorem State.mem_dueExpiries {i : Instr} (h : i ∈ s.dueExpiries) :
    (∃ p, i = .abandonExpiry p ∨ i = .waitExpiry p) ∨ (∃ m, i = .holdTimerExpiry m) ∨ ∃ e, i = .leaseExpiry e := by
  simp only [State.dueExpiries, List.mem_append, List.mem_map, List.mem_filterMap] at h
  rcases h with ((⟨_, -, h⟩ | ⟨p, -, rfl⟩) | ⟨m, -, rfl⟩) | ⟨p, -, rfl⟩
  · obtain ⟨e, -, rfl⟩ := Option.map_eq_some_iff.1 h
    exact .inr (.inr ⟨e, rfl⟩)
  · exact .inl ⟨p, .inr rfl⟩
  · exact .inr (.inl ⟨m, rfl⟩)
  · exact .inl ⟨p, .inl rfl⟩

end

/-- Settles O1: the clauses are the branches of the step, the fields of the tick, and the four lists of due expiries. -/
theorem stepTakesFrontCommand : Obligations.StepTakesFrontCommand := by
  unfold Obligations.StepTakesFrontCommand
  intro later reached
  have hlater : later = Timer.tick := by funext x; cases x <;> rfl
  have hreached : ∀ x, reached x ↔ x.due = true := fun x => Timer.due_iff.symm
  rw [hlater]
  refine ⟨fun i rest s => rfl, fun s hempty => ?_, fun s => ⟨fun p => ?_, fun m => ⟨fun p => ?_, ?_, ?_⟩, fun i => ?_, rfl⟩,
    fun s => ⟨fun p => ?_, fun p => ?_, fun m => ?_, fun e => ?_, fun i => State.mem_dueExpiries⟩, fun ms k => ?_⟩
  · rw [step, hempty]
    rfl
  · simp only [State.tick, Fin.getElem_fin, tabMap_getElem]
  · rw [State.tick_segs]
    simp only [Fin.getElem_fin, tabMap_getElem]
  · rw [State.tick_segs]
  · simp only [State.tick, Fin.getElem_fin, tabMap_getElem, HoldTimer.tick]
  · simp only [State.tick, Fin.getElem_fin, tabMap_getElem]
    rfl
  · rw [hreached, State.abandonExpiry_due]
  · simp only [hreached, State.waitExpiry_due, State.waitDue_iff]
  · simp only [hreached, State.holdTimerExpiry_due, HoldTimer.due, Bool.or_eq_true]
  · simp only [State.leaseExpiry_due, State.leaseDue_iff]
  · rw [Timer.tick_iterate, hreached]
    exact ⟨rfl, by simp [Timer.due]⟩

end Sys2Proof.Machine
end

section
/-! SUPPORT. The events of a host bus (spec 01): O40 to O43 and O47 to O49 settled. -/

namespace Sys2Proof.Machine

section
variable {s : State} {p : Port} {t : Transfer}

/-- Settles O40: each event of a host looks at the clock first. -/
theorem clockHeldPortsTakeNoEvent : Obligations.ClockHeldPortsTakeNoEvent := by
  unfold Obligations.ClockHeldPortsTakeNoEvent
  intro p s hclock
  refine ⟨?_, ?_, ?_, ?_, ?_, fun b => ?_, fun a d => ?_⟩
  all_goals
    simp only [exec, execStart, execRepeatedStart, State.startCondition, execStop, execHostAcknowledge,
      execHostNotAcknowledge, execDataByte, execAddressByte, hclock, if_true]

/-! ### Starts and stops -/

/-- A start and a repeated start are taken alike. -/
theorem exec_startCondition {i : Instr} (hi : i = .start p ∨ i = .repeatedStart p) (s : State) :
    exec i s = s.startCondition p := by
  rcases hi with rfl | rfl <;> rfl

/-- Settles O41, by the port's context. -/
theorem startConditionsTaken : Obligations.StartConditionsTaken := by
  unfold Obligations.StartConditionsTaken
  intro p i s hi hclock
  rw [exec_startCondition hi]
  refine ⟨fun hctx => ?_, fun t hctx => ?_⟩
  · rcases hctx with hctx | ⟨t, hctx⟩ | ⟨n, c, hctx⟩ <;> simp only [State.startCondition, hclock, hctx] <;> rfl
  · rcases hctx with hctx | hctx <;> simp only [State.startCondition, hclock, hctx] <;> rfl

/-- A stop on a port that relays ends its transfer. -/
theorem exec_stop_relay (hclock : s.ports[p].clockHeld = false)
    (hctx : s.ports[p].ctx = .relayWrite t ∨ s.ports[p].ctx = .relayRead t) :
    exec (.stop p) s = .next ((s.onPort p (HostPort.atRest false)).release t.snap.seg p) := by
  rcases hctx with hctx | hctx <;> simp only [exec, execStop, hclock, hctx] <;> rfl

/-- An engine between two bytes of a transfer ends its service by the stop, closing an open read slot first (R82, R86). -/
theorem Engine.endService_betweenBytes {e : Engine} (hclosing : e.isClosing = false)
    (hstate : e.state = .writing ∨ e.state = .reading) (hclocking : e.activity ≠ .clocking)
    (hwriting : e.state = .writing → e.activity = .none) :
    e.endService.settle = { e with
      state := .stopping, served := none, activity := .none, closing := false, discarding := false
      bus := if e.activity = .slotOpen then [.notAcknowledge, .stop] else [.stop] } := by
  rcases hstate with hstate | hstate
  · simp [Engine.endService, hclosing, hstate, hwriting hstate, Engine.driveStop, Engine.settle]
  · cases hactivity : e.activity with
    | clocking => exact absurd hactivity hclocking
    | none => simp [Engine.endService, hclosing, hstate, hactivity, Engine.driveStop, Engine.settle]
    | slotOpen => simp [Engine.endService, hclosing, hstate, hactivity, Engine.driveStop, Engine.settle]

/-- Settles O42: a relaying port's stop is a release, which on a segment that nobody waits for only ends the service. -/
theorem stopsTaken : Obligations.StopsTaken := by
  unfold Obligations.StopsTaken
  intro p s hclock
  refine ⟨fun hctx => ?_, fun t hctx => ?_⟩
  · rcases hctx with hctx | ⟨t, hctx⟩ | ⟨n, c, hctx⟩ <;> simp only [exec, execStop, hclock, hctx] <;> rfl
  · refine ⟨exec_stop_relay hclock hctx, ?_⟩
    intro hqueue hdisable hclosing hstate hclocking hwriting
    rw [exec_stop_relay hclock hctx, State.release_empty p (by simpa using hqueue) (by simpa using hdisable)]
    exact congrArg Host.Outcome.next
      (State.onEngine_congr (Engine.endService_betweenBytes hclosing hstate hclocking hwriting))

/-! ### Address bytes -/

theorem reservedAddr_iff {a : Addr} : reservedAddr a = true ↔ a.toNat ≤ 0x07 ∨ 0x78 ≤ a.toNat := by
  simp only [reservedAddr, Bool.or_eq_true, decide_eq_true_eq]
  omega

/-- An address that is reserved, or that nobody answers, leaves the port passive (R4). -/
theorem State.classify_passive {a : Addr} (h : a.toNat ≤ 0x07 ∨ 0x78 ≤ a.toNat ∨ a ≠ s.ownAddr ∧ s.resolve p a = none)
    (d : Dir) : s.classify p a d = s.onPort p (HostPort.atRest false) := by
  cases hres : reservedAddr a with
  | true => exact if_pos hres
  | false =>
    have hplain : ¬ (a.toNat ≤ 0x07 ∨ 0x78 ≤ a.toNat) := fun hreserved => by
      rw [reservedAddr_iff.2 hreserved] at hres
      cases hres
    obtain ⟨hown, hnone⟩ := (or_assoc.2 h).resolve_left hplain
    simp only [State.classify, hres, if_neg hown, hnone]
    rfl

/-- The own address is the part's own transfer (R4 cases 2 and 3). -/
theorem State.classify_own (h₁ : 0x07 < s.ownAddr.toNat) (h₂ : s.ownAddr.toNat < 0x78) (d : Dir) :
    s.classify p s.ownAddr d = match d with
      | .write => s.enterCommandIn p
      | .read => s.enterResponseOut p := by
  simp only [State.classify, reservedAddr_false (a := s.ownAddr) (by omega) (by omega)]
  rfl

/-- Settles O43: an address byte that a port expects is classified, one that it does not expect is ignored. -/
theorem addressByteClassified : Obligations.AddressByteClassified := by
  unfold Obligations.AddressByteClassified
  refine fun p a d s hclock => ⟨fun hctx hexp => ?_, fun hctx hexp => ?_⟩
  · have hrun : exec (.addressByte p a d) s = .next (s.classify p a d) := execAddressByte_classify hclock hctx hexp a d
    rw [hrun]
    refine ⟨fun hpassive => by rw [State.classify_passive hpassive], ?_⟩
    rintro rfl h₁ h₂
    rw [State.classify_own h₁ h₂]
    exact ⟨by rintro rfl; rfl, by rintro rfl; rfl⟩
  · simp only [exec, execAddressByte, hclock, hctx, hexp]
    rfl

/-- An address byte on a port that holds a segment is taken after its repeated start (R15). -/
theorem execAddressByte_holding (hclock : s.ports[p].clockHeld = false)
    (hctx : s.ports[p].ctx = .relayWrite t ∨ s.ports[p].ctx = .relayRead t) (hexp : s.ports[p].addrExpected = true) (a : Addr)
    (d : Dir) : exec (.addressByte p a d) s = .next (s.addressWhileHolding t.snap.seg p a d) := by
  rcases hctx with hctx | hctx <;> simp only [exec, execAddressByte, hclock, hctx, hexp] <;> rfl

/-- An address that resolves to the segment held continues there (R15 case 1). -/
theorem State.addressWhileHolding_same {a : Addr} {d : Dir} {n : Snapshot} (hres : reservedAddr a = false)
    (hown : a ≠ s.ownAddr) (hn : s.resolve p a = some n) :
    s.addressWhileHolding n.seg p a d = s.sameSegment p { vaddr := a, dir := d, snap := n } := by
  simp [State.addressWhileHolding, hres, hown, hn]

/-- Any other address leaves the segment (R15 case 2). -/
theorem State.addressWhileHolding_other {a : Addr} {d : Dir} {m : Seg}
    (h : ¬ (0x08 ≤ a.toNat ∧ a.toNat ≤ 0x77 ∧ a ≠ s.ownAddr) ∨ s.resolve p a = none ∨
      ∃ n, s.resolve p a = some n ∧ n.seg ≠ m) :
    s.addressWhileHolding m p a d = s.leaveSegment m p a d := by
  unfold State.addressWhileHolding
  split
  · rfl
  next hplain =>
    simp only [Bool.or_eq_true, not_or, beq_iff_eq, reservedAddr_iff] at hplain
    obtain ⟨hres, hown⟩ := hplain
    rcases h with hnot | hnone | ⟨n, hn, hseg⟩
    · exact absurd ⟨by omega, by omega, hown⟩ hnot
    · simp only [hnone]
    · simp only [hn, if_neg hseg]

/-- The engine's repeated start closes the read slot that is open, and nothing else (R88). -/
theorem Engine.restart_eq (target : Addr × Dir) : Engine.restart target = fun e => { e with
    state := .starting, target := some target, retry := 0, activity := .none
    bus := if e.activity = .slotOpen then [.notAcknowledge] else [] } := by
  funext e
  unfold Engine.restart
  cases hactivity : e.activity <;> rfl

/-- Settles O47: on the segment held the new transfer is checked once; every other address leaves the segment first. -/
theorem addressAfterRepeatedStart : Obligations.AddressAfterRepeatedStart := by
  unfold Obligations.AddressAfterRepeatedStart
  intro p a d t s hclock hctx hexp m run relayed
  have hrun : run = .next (s.addressWhileHolding m p a d) := execAddressByte_holding hclock hctx hexp a d
  refine ⟨fun n hrelayed hn hm => ?_, fun hother => ?_⟩
  · obtain ⟨hlow, hhigh, hown⟩ := hrelayed
    rw [← hm, State.addressWhileHolding_same (reservedAddr_false hlow hhigh) hown hn] at hrun
    rw [hrun, ← hm]
    refine ⟨fun hnone => ?_, fun r hr => ?_⟩
    · simp only [State.sameSegment, hnone, Engine.restart_eq]
      rfl
    · simp only [State.sameSegment, hr, State.refuse_eq]
  · rw [hrun, State.addressWhileHolding_other hother]
    rfl

/-! ### Bytes and answers -/

theorem Engine.serves_iff {e : Engine} {st : EngState} {act : ByteAct} :
    e.serves p st act = true ↔ e.served = some p ∧ e.state = st ∧ e.activity = act ∧ e.isClosing = false := by
  simp [Engine.serves, and_assoc]

/-- Settles O48, by the port's context. -/
theorem dataBytesTaken : Obligations.DataBytesTaken := by
  unfold Obligations.DataBytesTaken
  intro p b s hclock
  refine ⟨fun hctx => ?_, fun t hctx hexp hserved hstate hactivity hclosing => ?_, fun t hctx hdir hexp => ?_, fun hctx => ?_⟩
  · have hrun : exec (.dataByte p b) s = .next (s.frameByte p b) := by
      simp only [exec, execDataByte, hclock, hctx]
      rfl
    rw [hrun]
    exact ⟨fun hroom => congrArg Host.Outcome.next (if_pos hroom),
      fun hfull => congrArg Host.Outcome.next (if_neg (Nat.not_lt.2 hfull))⟩
  · have hserves := Engine.serves_iff.2 ⟨hserved, hstate, hactivity, hclosing⟩
    simp only [exec, execDataByte, hclock, hctx, hexp, hserves]
    rfl
  · simp only [exec, execDataByte, hclock, hctx, hexp, hdir]
    rfl
  · simp only [exec, execDataByte, hclock, hctx]
    rfl

/-- Settles O49, by the port's context. -/
theorem hostAnswersTaken : Obligations.HostAnswersTaken := by
  unfold Obligations.HostAnswersTaken
  intro p s hclock quiet
  refine ⟨fun n hctx => ?_, fun n c hctx => ⟨?_, ?_⟩, fun t hctx hexp hopen hserved hstate hactivity hclosing => ?_,
    fun t hctx hexp hclosed => ?_, fun t hctx hdir hexp => ?_, fun hctx => ?_⟩
  · simp only [exec, execHostAcknowledge, hclock, hctx]
    rfl
  · simp only [exec, execHostNotAcknowledge, hclock, hctx]
    rfl
  · rintro rfl
    simp only [exec, execHostAcknowledge, hclock, hctx]
    rfl
  · have hserves := Engine.serves_iff.2 ⟨hserved, hstate, hactivity, hclosing⟩
    simp only [exec, execHostAcknowledge, execHostNotAcknowledge, hclock, hctx, hexp, hopen, hserves]
    exact ⟨rfl, rfl⟩
  · simp only [exec, execHostAcknowledge, execHostNotAcknowledge, hclock, hctx, hexp, hclosed]
    exact ⟨rfl, rfl⟩
  · simp only [exec, execHostAcknowledge, execHostNotAcknowledge, hclock, hctx, hexp, hdir]
    exact ⟨rfl, rfl⟩
  · simp only [exec, execHostAcknowledge, execHostNotAcknowledge, hclock, hctx]
    exact ⟨rfl, rfl⟩

end

end Sys2Proof.Machine
end

section
/-! SUPPORT. The expiries of a host port (spec 01, 04): O50 and O51 settled. -/

namespace Sys2Proof.Machine

section
variable {s : State} {p : Port} {t : Transfer}

/-- Settles O50, by the port's context. -/
theorem abandonExpiryEndsEngagement : Obligations.AbandonExpiryEndsEngagement := by
  unfold Obligations.AbandonExpiryEndsEngagement
  intro p s htimer told rest
  have hrunning : s.ports[p].abandon.isRunning = true := (Timer.isRunning_iff _).2 htimer
  refine ⟨fun t hctx => ?_, fun t hctx => ?_, fun hctx => ?_, fun n c hctx => ?_⟩
  · rcases hctx with hctx | hctx <;> simp only [exec, execAbandonExpiry, hrunning, hctx] <;> rfl
  all_goals
    simp only [exec, execAbandonExpiry, hrunning, hctx]
    rfl

theorem execWaitExpiry_waiting (hctx : s.ports[p].ctx = .waiting t) (hrunning : s.segs[t.snap.seg].waits[p] ≠ .stopped) :
    execWaitExpiry p s = .next (s.expireQueued p t) := by
  simp only [execWaitExpiry, hctx, (Timer.isRunning_iff _).2 hrunning, if_true]

theorem execWaitExpiry_addressing (hctx : s.ports[p].ctx = .addressing t)
    (hrunning : s.segs[t.snap.seg].waits[p] ≠ .stopped) : execWaitExpiry p s = .next (s.expireAddressing p t) := by
  simp only [execWaitExpiry, hctx, (Timer.isRunning_iff _).2 hrunning, if_true]

theorem execWaitExpiry_stopped (hctx : s.ports[p].ctx = .waiting t ∨ s.ports[p].ctx = .addressing t)
    (hstopped : s.segs[t.snap.seg].waits[p] = .stopped) : execWaitExpiry p s = .refused .timerNotRunning := by
  rcases hctx with hctx | hctx <;> simp only [execWaitExpiry, hctx, hstopped] <;> rfl

/-- A change of an arbiter with a wait timer stopped, as one change. -/
theorem State.onSeg_stopWait (s : State) (m : Seg) (p : Port) (f : Arbiter → Arbiter) :
    (s.onSeg m f).stopWait m p = s.onSeg m (fun a => { f a with waits := (f a).waits.set p .stopped }) :=
  State.onSeg_onSeg s m f _

/-- Settles O51: by the port's place, in the queue, as resume port, or as holder. -/
theorem waitExpiryRefusesPort : Obligations.WaitExpiryRefusesPort := by
  unfold Obligations.WaitExpiryRefusesPort
  intro p t s m running run
  refine ⟨fun hctx hrunning => ?_, fun hctx hrunning => ⟨fun q hstate => ?_, fun hstate => ?_⟩, execWaitExpiry_stopped⟩
  · have hleft : (s.leaveQueue m p).ports[p].ctx = .waiting t := hctx
    rw [show run = _ from execWaitExpiry_waiting hctx hrunning, State.expireQueued, State.refuseWaiter_waiting _ hleft,
      State.leaveQueue, State.onSeg_stopWait]
  · have hset : (s.setSegState m (.recovering none)).ports[p].ctx = .addressing t := hctx
    rw [show run = _ from execWaitExpiry_addressing hctx hrunning]
    simp only [State.expireAddressing, show s.segs[t.snap.seg].state = .recovering q from hstate]
    rw [State.refuseWaiter_addressing _ hset, State.setSegState, State.onSeg_stopWait]
  · rw [show run = _ from execWaitExpiry_addressing hctx hrunning]
    unfold State.expireAddressing
    split
    next q hq => exact absurd hq (hstate q)
    next => rfl

end

end Sys2Proof.Machine
end

section
/-! SUPPORT. The engines' own steps (spec 05): O53 to O56 settled. -/

namespace Sys2Proof.Machine

/-! ### Orders and ends of service (R76, R82, R86, R90, R93) -/

theorem Engine.isClosing_false {e : Engine} : e.isClosing = false ↔ e.closing = false ∧ e.discarding = false := by
  simp [Engine.isClosing]

/-- Settles O53, by the engine's state and the byte it is clocking. -/
theorem engineTakesOrdersAndEnds : Obligations.EngineTakesOrdersAndEnds := by
  unfold Obligations.EngineTakesOrdersAndEnds
  intro e p a d sh
  refine ⟨fun hclosing hstate => ?_, fun hclosing hstate => ?_, fun hclosing => ?_, fun hclosing => ?_⟩
  · simp [Engine.order, hclosing, hstate, Engine.enterStarting]
  · rcases hstate with hstate | hstate <;> simp [Engine.order, hclosing, hstate]
  · simp [Engine.order, hclosing]
  · obtain ⟨hclosed, hdiscarding⟩ := Engine.isClosing_false.1 hclosing
    refine ⟨fun hstate hactivity => ?_, fun hstate hactivity => ?_, fun hbyte => ?_, fun hstate howned hactivity => ?_,
      fun hstate howned => ?_, fun hstate => ?_⟩
    · rcases hstate with hstate | hstate <;>
        simp [Engine.endService, hclosing, hstate, hactivity, Engine.driveStop, hclosed, hdiscarding]
    · simp [Engine.endService, hclosing, hstate, hactivity, Engine.driveStop, hclosed, hdiscarding]
    · rcases hbyte with hstate | ⟨hstate | hstate, hactivity⟩
      · simp [Engine.endService, hclosing, hstate]
      · simp [Engine.endService, hclosing, hstate, hactivity]
      · simp [Engine.endService, hclosing, hstate, hactivity]
    · simp [Engine.endService, hclosing, hstate, howned, hactivity, Engine.driveStop, hclosed, hdiscarding]
    · simp [Engine.endService, hclosing, hstate, howned, Engine.settle, Engine.toQuiet]
    · simp [Engine.endService, hclosing, hstate]

/-! ### The address phase (R77 to R80) -/

section
variable {s : State} {m : Seg} {p : Port} {t : Transfer}

theorem Engine.mayStart_iff {e : Engine} :
    e.mayStart = true ↔ e.state = .starting ∧ (e.busOwned = true ∨ e.sharedMode = false ∨ e.foreignBusy = false) := by
  simp [Engine.mayStart, or_assoc]

theorem State.servedAddressing_of (hserved : s.engines[m].served = some p) (hctx : s.ports[p].ctx = .addressing t) :
    s.servedAddressing m = some (p, t) := by
  simp only [State.servedAddressing, hserved, hctx]

theorem State.servedRelay_of (hserved : s.engines[m].served = some p)
    (hctx : s.ports[p].ctx = .relayWrite t ∨ s.ports[p].ctx = .relayRead t) : s.servedRelay m = some (p, t) := by
  rcases hctx with hctx | hctx <;> simp only [State.servedRelay, hserved, hctx]

/-- Settles O54: the line check, then the target's answer by the direction of the transfer. -/
theorem addressPhaseRuns : Obligations.AddressPhaseRuns := by
  unfold Obligations.AddressPhaseRuns
  intro m s
  refine ⟨fun a d hstate htarget hfree => ?_, fun hstate howned hshared hbusy => ?_,
    fun p t hstate hactivity hclosing hserved hctx => ⟨fun hdir => ?_, fun hdir => ?_, ?_⟩⟩
  · have hmay := Engine.mayStart_iff.2 ⟨hstate, hfree⟩
    simp only [exec, execLineCheckPassed, hmay, htarget]
    rfl
  · have hmay : s.engines[m].mayStart = false := by
      rw [Bool.eq_false_iff, ne_eq, Engine.mayStart_iff, howned, hshared, hbusy]
      simp
    simp only [exec, execLineCheckPassed, hmay]
    rfl
  all_goals
    have hclocks := Engine.clocks_iff.2 ⟨hstate, hactivity, hclosing⟩
    have hholder := State.servedAddressing_of hserved hctx
  · simp only [exec, execTargetAcknowledgesAddress, hclocks, hholder]
    simp only [funext fun h => HostPort.addressAcknowledged.eq_def t h, hdir]
    rfl
  · simp only [exec, execTargetAcknowledgesAddress, hclocks, hholder]
    simp only [funext fun h => HostPort.addressAcknowledged.eq_def t h, hdir]
    rfl
  · simp only [exec, execTargetNack, hclocks, hholder, if_true, State.releaseBy]
    rw [State.settle_handOver (by simp [Engine.nackStop, Engine.driveStop, State.refuse])]
    rfl

/-- Settles O55: either answer of the target goes upstream, and the transfer goes on. -/
theorem relayedBytesAnswered : Obligations.RelayedBytesAnswered := by
  unfold Obligations.RelayedBytesAnswered
  intro m p t s hactivity hclosing hserved
  refine ⟨fun hstate hctx acked => ?_, fun hstate hctx b => ?_⟩
  all_goals have hclocks := Engine.clocks_iff.2 ⟨hstate, hactivity, hclosing⟩
  · have hholder := State.servedRelay_of hserved (.inl hctx)
    simp only [exec, execWriteByteAnswered, hclocks, hholder]
    rfl
  · have hholder := State.servedRelay_of hserved (.inr hctx)
    simp only [exec, execReadByteFetched, hclocks, hholder]
    rfl

/-! ### Closing bytes and stops (R90, R91) -/

theorem execClosingByteFinished_clocking (hactivity : s.engines[m].activity = .clocking)
    (hclosing : s.engines[m].isClosing = true) (acked : Bool) :
    exec (.closingByteFinished m acked) s = .next (s.onEngine m (Engine.finishClosing acked)) := by
  simp only [exec, execClosingByteFinished, hactivity, hclosing]
  rfl

/-- Settles O56: the closing byte by the step it belongs to, and the stop by whether a port is served. -/
theorem closingBytesAndStops : Obligations.ClosingBytesAndStops := by
  unfold Obligations.ClosingBytesAndStops
  intro m s e stopping
  refine ⟨fun acked hactivity hclosing hdiscarding => ?_, fun acked hactivity hdiscarding => ?_, fun hstate => ?_⟩
  · have hrun := execClosingByteFinished_clocking (s := s) (m := m) hactivity (by simpa [Engine.isClosing] using .inl hclosing) acked
    rw [hrun]
    refine ⟨fun hstate => ?_, fun hstate => ?_, fun a d hstate htarget hend => ?_, fun a hstate htarget hacked => ?_⟩
    all_goals refine congrArg Host.Outcome.next (State.onEngine_congr ?_)
    · simp only [Engine.finishClosing, show s.engines[m].discarding = false from hdiscarding,
        show s.engines[m].state = .writing from hstate]
      rfl
    · simp only [Engine.finishClosing, show s.engines[m].discarding = false from hdiscarding,
        show s.engines[m].state = .reading from hstate]
      rfl
    · simp only [Engine.finishClosing, show s.engines[m].discarding = false from hdiscarding,
        show s.engines[m].state = .address from hstate, show s.engines[m].target = some (a, d) from htarget]
      rcases hend with rfl | rfl
      · rfl
      · cases d <;> rfl
    · simp only [Engine.finishClosing, show s.engines[m].discarding = false from hdiscarding,
        show s.engines[m].state = .address from hstate, show s.engines[m].target = some (a, .read) from htarget, hacked]
      rfl
  · rw [execClosingByteFinished_clocking hactivity (by simpa [Engine.isClosing] using .inr hdiscarding)]
    refine congrArg Host.Outcome.next (State.onEngine_congr ?_)
    simp only [Engine.finishClosing, show s.engines[m].discarding = true from hdiscarding]
    rfl
  · have hrun : exec (.stopComplete m) s =
        .next (s.onEngine m (Engine.stopCompleted (s.engines[m].served.bind s.targetOf) s.segs[m].shared)) := if_pos hstate
    rw [hrun]
    refine ⟨fun p t hserved hctx => ?_, fun hserved => ?_⟩
    all_goals refine congrArg Host.Outcome.next (State.onEngine_congr ?_)
    · simp only [Engine.stopCompleted, show s.engines[m].served = some p from hserved, Option.bind_some, State.targetOf, hctx]
      rfl
    · simp only [Engine.stopCompleted, show s.engines[m].served = none from hserved]
      rfl

end

end Sys2Proof.Machine
end

section
/-! SUPPORT. Held lines and hold expiries (spec 05, 06): O57 settled. -/

namespace Sys2Proof.Machine

/-! ### The timing of a line (R94) -/

/-- A step of the engine at which a clock held low delays it, outside a recovery. -/
theorem Engine.watches_clock_iff {e : Engine} (h : e.state ≠ .recovering) : e.watches .clock = true ↔
    e.state = .starting ∨ e.state = .stopping ∨
      (e.state = .address ∨ e.state = .writing ∨ e.state = .reading) ∧ e.activity = .clocking := by
  cases hstate : e.state with
  | recovering => exact absurd hstate h
  | _ => simp [Engine.watches, hstate]

/-- A step of the engine at which a data line held low delays it, outside a recovery. -/
theorem Engine.watches_data_iff {e : Engine} (h : e.state ≠ .recovering) : e.watches .data = true ↔
    e.state = .starting ∨ e.state = .stopping ∧ e.hold.clock = .stopped := by
  have hstopped : e.hold.clock.isRunning = false ↔ e.hold.clock = .stopped := by
    rw [Bool.eq_false_iff, ne_eq, Timer.isRunning_iff, not_not]
  cases hstate : e.state with
  | recovering => exact absurd hstate h
  | _ => simp [Engine.watches, hstate, hstopped]

theorem Engine.testsData_recovering {e : Engine} (h : e.testsData = true) : e.state = .recovering := by
  simp only [Engine.testsData, Bool.and_eq_true, decide_eq_true_eq] at h
  exact h.1.1

theorem Engine.testsData_false {e : Engine} (h : e.state ≠ .recovering) : e.testsData = false :=
  Bool.eq_false_iff.2 fun ht => h (Engine.testsData_recovering ht)

/-- A line that is timed already is not timed again. -/
theorem Engine.timeLine_running {e : Engine} {l : Line} (h : e.hold.line l ≠ .stopped) (limit : Nat) :
    e.timeLine limit l = e := by
  rw [Engine.timeLine, if_pos ((Timer.isRunning_iff _).2 h)]

/-- A line not yet timed is timed from zero, at any step but a pulse of a recovery. -/
theorem Engine.timeLine_starts {e : Engine} {l : Line} (h : e.hold.line l = .stopped)
    (hpulse : ¬ (e.state = .recovering ∧ e.recStep = .pulse)) (limit : Nat) :
    e.timeLine limit l = { e with hold := e.hold.onLine l (Timer.start limit) } := by
  have hstopped : ¬ (e.hold.line l).isRunning = true := by rw [h]; decide
  rw [Engine.timeLine, if_neg hstopped]
  cases hstate : e.state with
  | recovering =>
    cases hstep : e.recStep with
    | pulse => exact absurd ⟨hstate, hstep⟩ hpulse
    | _ => rfl
  | _ => rfl

section
variable {s : State} {m : Seg}

theorem execLineHeld_watched {l : Line} (h : s.engines[m].watches l = true) :
    exec (.lineHeld m l) s = .next (s.onEngine m (Engine.timeLine s.segs[m].holdLimit l)) := by
  simp only [exec, execLineHeld, h, if_true]

theorem execLineHeld_unwatched {l : Line} (h : s.engines[m].watches l = false)
    (htest : l = .data → s.engines[m].testsData = false) : exec (.lineHeld m l) s = .next s := by
  simp only [exec, execLineHeld, h]
  cases l with
  | clock => rfl
  | data => rw [htest rfl]; rfl

theorem execLineHeld_starts {l : Line} (hwatch : s.engines[m].watches l = true) (hstopped : s.engines[m].hold.line l = .stopped)
    (hpulse : ¬ (s.engines[m].state = .recovering ∧ s.engines[m].recStep = .pulse)) :
    exec (.lineHeld m l) s = .next (s.onEngine m (fun e =>
      { e with hold := e.hold.onLine l (.running (s.segs[m].holdLimit * Config.ticksPerMs) 0) })) := by
  rw [execLineHeld_watched hwatch]
  exact congrArg Host.Outcome.next (State.onEngine_congr (Engine.timeLine_starts hstopped hpulse _))

/-- A line that is timed already, or that the engine does not need high, changes nothing. -/
theorem execLineHeld_idle {l : Line} (h : s.engines[m].watches l = false ∨ s.engines[m].hold.line l ≠ .stopped)
    (htest : l = .data → s.engines[m].testsData = false) : exec (.lineHeld m l) s = .next s := by
  cases hwatch : s.engines[m].watches l with
  | false => exact execLineHeld_unwatched hwatch htest
  | true =>
    have hrunning := h.resolve_left (by rw [hwatch]; decide)
    rw [execLineHeld_watched hwatch, State.onEngine_eq_self (Engine.timeLine_running hrunning _)]

theorem execLineReleased_clock :
    exec (.lineReleased m .clock) s = .next (s.onEngine m (fun e => { e with hold := { e.hold with clock := .stopped } })) := rfl

theorem execLineReleased_data (h : s.engines[m].testsData = false) :
    exec (.lineReleased m .data) s = .next (s.onEngine m (fun e => { e with hold := { e.hold with data := .stopped } })) := by
  simp only [exec, execLineReleased, h]
  rfl

/-! ### A hold that expires (R77, R92, R95, R102, R103) -/

theorem execHoldTimerExpiry_unserved (hrunning : s.engines[m].hold ≠ .stopped)
    (h : s.engines[m].isClosing = true ∨ s.engines[m].state = .stopping) :
    exec (.holdTimerExpiry m) s = .next (s.holdExpiryUnserved m) := by
  have htimed := (HoldTimer.isRunning_iff _).2 hrunning
  cases hclosing : s.engines[m].isClosing with
  | true => simp only [exec, execHoldTimerExpiry, htimed, hclosing]; rfl
  | false =>
    have hstate := h.resolve_left (by rw [hclosing]; decide)
    simp only [exec, execHoldTimerExpiry, htimed, hclosing, hstate]
    rfl

/-- In an address phase the holder keeps its transfer. -/
theorem execHoldTimerExpiry_addressing (hrunning : s.engines[m].hold ≠ .stopped) (hclosing : s.engines[m].isClosing = false)
    (hstate : s.engines[m].state = .starting ∨ s.engines[m].state = .address) :
    exec (.holdTimerExpiry m) s = .next (s.beginRecovery m none) := by
  have htimed := (HoldTimer.isRunning_iff _).2 hrunning
  rcases hstate with hstate | hstate <;> simp only [exec, execHoldTimerExpiry, htimed, hclosing, hstate] <;> rfl

/-- In a data byte the holder is broken. -/
theorem execHoldTimerExpiry_relaying {p : Port} {t : Transfer} (hrunning : s.engines[m].hold ≠ .stopped)
    (hclosing : s.engines[m].isClosing = false) (hstate : s.engines[m].state = .writing ∨ s.engines[m].state = .reading)
    (hholder : s.servedRelay m = some (p, t)) :
    exec (.holdTimerExpiry m) s = .next ((s.breakPort m p t .holdExpired).beginRecovery m (some p)) := by
  have htimed := (HoldTimer.isRunning_iff _).2 hrunning
  rcases hstate with hstate | hstate <;> simp only [exec, execHoldTimerExpiry, htimed, hclosing, hstate, hholder] <;> rfl

/-- Settles O57: the lines by what the engine watches, the expiry by what the engine was doing. -/
theorem heldLinesAndHoldExpiry : Obligations.HeldLinesAndHoldExpiry := by
  unfold Obligations.HeldLinesAndHoldExpiry
  intro m s e run started needsClock needsData
  refine ⟨fun hneeds hstopped => ?_, fun hneeds hstopped => ?_, fun hstate => ⟨fun hidle => ?_, fun hidle => ?_,
    execLineReleased_clock, execLineReleased_data (Engine.testsData_false hstate)⟩, fun hstopped => ?_,
    fun hrunning => ⟨fun p t hstate hclosing hactive hctx => ?_, fun p t hstate hclosing hserved hactive hctx => ?_,
      fun hending => ⟨fun hidle => ?_, fun p t hactive hctx => ?_, fun hdisabled => ?_⟩⟩⟩
  · have hstate : s.engines[m].state ≠ .recovering := by
      rcases hneeds with h | h | ⟨h | h | h, -⟩ <;> rw [h] <;> decide
    exact execLineHeld_starts ((Engine.watches_clock_iff hstate).2 hneeds) hstopped (fun h => hstate h.1)
  · have hstate : s.engines[m].state ≠ .recovering := by
      rcases hneeds with h | ⟨h, -⟩ <;> rw [h] <;> decide
    exact execLineHeld_starts ((Engine.watches_data_iff hstate).2 hneeds) hstopped (fun h => hstate h.1)
  · exact execLineHeld_idle (hidle.imp_left fun h => Bool.eq_false_iff.2 fun hw => h ((Engine.watches_clock_iff hstate).1 hw))
      (fun h => by cases h)
  · exact execLineHeld_idle (hidle.imp_left fun h => Bool.eq_false_iff.2 fun hw => h ((Engine.watches_data_iff hstate).1 hw))
      (fun _ => Engine.testsData_false hstate)
  · have htimer : s.engines[m].hold.isRunning = false := by rw [show s.engines[m].hold = _ from hstopped]; rfl
    simp only [run, exec, execHoldTimerExpiry, htimer]
    rfl
  · rw [show run = _ from execHoldTimerExpiry_addressing hrunning hclosing hstate,
      State.beginRecovery_eq _ (State.recoveringState_addressing hactive hctx)]
  · rw [show run = _ from execHoldTimerExpiry_relaying hrunning hclosing hstate (State.servedRelay_of hserved hctx),
      State.breakPort_eq, State.beginRecovery_eq _ (State.recoveringState_afterBreak hactive)]
  all_goals rw [show run = _ from execHoldTimerExpiry_unserved hrunning hending]
  · simp only [State.holdExpiryUnserved, hidle, State.beginRecovery_eq _ (State.recoveringState_free (.inl hidle))]
  · simp only [State.holdExpiryUnserved, hactive, State.beginRecovery_eq _ (State.recoveringState_addressing hactive hctx)]
  · simp only [State.holdExpiryUnserved, hdisabled]
    rfl

end

end Sys2Proof.Machine
end

section
/-! SUPPORT. O60 settled: events that cannot occur are refused by name (log entry 5). -/

namespace Sys2Proof.Machine

section
variable {s : State} {p : Port} {t : Transfer} {m : Seg}

/-! ### Host events out of place -/

theorem commandRow_busy (h : s.ports[p].ctx ≠ .idle) (c : Command) : exec (c.row p) s = .refused .noFrameTaken := by
  rw [exec_row]
  exact if_neg h

/-- A port that relays or is broken takes no byte and no answer while its address byte is due. -/
theorem refused_addressByteDue (hclock : s.ports[p].clockHeld = false)
    (hctx : s.ports[p].ctx = .relayWrite t ∨ s.ports[p].ctx = .relayRead t ∨ s.ports[p].ctx = .broken t)
    (hexp : s.ports[p].addrExpected = true) :
    (∀ b, exec (.dataByte p b) s = .refused .addressByteDue) ∧ exec (.hostAcknowledge p) s = .refused .addressByteDue ∧
      exec (.hostNotAcknowledge p) s = .refused .addressByteDue := by
  rcases hctx with hctx | hctx | hctx
  all_goals
    simp only [exec, execDataByte, execHostAcknowledge, execHostNotAcknowledge, hclock, hctx, hexp]
    exact ⟨fun _ => rfl, rfl, rfl⟩

/-- A port outside IDLE takes no address byte but after a repeated start. -/
theorem refused_addressByteNotDue (hclock : s.ports[p].clockHeld = false) (hctx : s.ports[p].ctx ≠ .idle)
    (hexp : s.ports[p].addrExpected = false ∨ s.ports[p].ctx = .commandIn ∨ ∃ n c, s.ports[p].ctx = .responseOut n c)
    (a : Addr) (d : Dir) : exec (.addressByte p a d) s = .refused .addressByteNotDue := by
  have hrun : exec (.addressByte p a d) s = execAddressByte p a d s := rfl
  rw [hrun]
  unfold execAddressByte
  rcases hexp with hexp | hcommand | ⟨n, c, hresponse⟩
  · cases hc : s.ports[p].ctx with
    | idle => exact absurd hc hctx
    | _ => simp only [hclock, hc, hexp]; rfl
  · simp only [hclock, hcommand]; rfl
  · simp only [hclock, hresponse]; rfl

/-! ### Reports of an engine that is not at the step -/

theorem Engine.clocks_false {e : Engine} {st : EngState} (h : e.state ≠ st ∨ e.activity ≠ .clocking ∨ e.isClosing = true) :
    e.clocks st = false := by
  rw [Bool.eq_false_iff, ne_eq, Engine.clocks_iff]
  rintro ⟨hstate, hactivity, hclosing⟩
  rw [hclosing] at h
  exact h.elim (absurd hstate) (fun h => h.elim (absurd hactivity) Bool.false_ne_true)

/-- What an engine reports at a step that it is not at is refused. -/
theorem refused_engineNotAtStep (m : Seg) (s : State) :
    (s.engines[m].state ≠ .starting → exec (.lineCheckPassed m) s = .refused .engineNotAtStep) ∧
    (s.engines[m].state ≠ .address ∨ s.engines[m].isClosing = true →
      exec (.targetAcknowledgesAddress m) s = .refused .engineNotAtStep ∧ exec (.targetNack m) s = .refused .engineNotAtStep) ∧
    (s.engines[m].state ≠ .writing ∨ s.engines[m].activity ≠ .clocking ∨ s.engines[m].isClosing = true →
      ∀ acked, exec (.writeByteAnswered m acked) s = .refused .engineNotAtStep) ∧
    (s.engines[m].state ≠ .reading ∨ s.engines[m].activity ≠ .clocking ∨ s.engines[m].isClosing = true →
      ∀ b, exec (.readByteFetched m b) s = .refused .engineNotAtStep) ∧
    (s.engines[m].isClosing = false → ∀ acked, exec (.closingByteFinished m acked) s = .refused .engineNotAtStep) ∧
    (s.engines[m].state ≠ .stopping → exec (.stopComplete m) s = .refused .engineNotAtStep) := by
  refine ⟨fun h => ?_, fun h => ?_, fun h acked => ?_, fun h b => ?_, fun h acked => ?_, fun h => if_neg h⟩
  · have hmay : s.engines[m].mayStart = false := Bool.eq_false_iff.2 fun hm => h (Engine.mayStart_iff.1 hm).1
    simp only [exec, execLineCheckPassed, hmay]
    rfl
  · have hclocks := Engine.clocks_false (h.imp_right .inr)
    simp only [exec, execTargetAcknowledgesAddress, execTargetNack, hclocks]
    exact ⟨rfl, rfl⟩
  · simp only [exec, execWriteByteAnswered, Engine.clocks_false h]
    rfl
  · simp only [exec, execReadByteFetched, Engine.clocks_false h]
    rfl
  · simp only [exec, execClosingByteFinished, h]
    rfl

theorem Engine.atPulse_false {e : Engine} (h : e.state ≠ .recovering ∨ e.recStep = .stop) : e.atPulse = false := by
  rcases h with h | h <;> simp [Engine.atPulse, h]

/-- A recovery's reports need the engine at the step of R105 that they end. -/
theorem refused_recoveryStep (m : Seg) (s : State) :
    (s.engines[m].state ≠ .recovering ∨ s.engines[m].recStep = .stop →
      ∀ high, exec (.recoveryPulse m high) s = .refused .engineNotAtStep) ∧
    (s.engines[m].state ≠ .recovering ∨ s.engines[m].recStep = .pulse ∨ s.engines[m].recStep = .pulsing →
      exec (.recoverySucceeded m) s = .refused .engineNotAtStep) := by
  refine ⟨fun h high => ?_, fun h => if_neg ?_⟩
  · simp only [exec, execRecoveryPulse, Engine.atPulse_false h]
    rfl
  · rintro ⟨hstate, hstep⟩
    rcases h with h | h | h
    · exact h hstate
    all_goals
      rw [h] at hstep
      rcases hstep with hstep | hstep <;> cases hstep

theorem refused_noContest (h : s.engines[m].sharedMode = false ∨ s.engines[m].busOwned = false ∨
    s.engines[m].state = .recovering) : exec (.arbitrationLoss m) s = .refused .noContest := by
  have hcontends : s.engines[m].contends = false := by
    rcases h with h | h | h <;> simp only [Engine.contends, h] <;> simp
  simp only [exec, execArbitrationLoss, hcontends]
  rfl

/-- Settles O60: each row looks first at what its event needs. -/
theorem eventsThatCannotOccurAreRefused : Obligations.EventsThatCannotOccurAreRefused := by
  unfold Obligations.EventsThatCannotOccurAreRefused
  intro s
  refine ⟨fun p c h => commandRow_busy h c, fun p b => ⟨fun h => if_pos h, fun h hctx => ?_⟩, fun p t hclock =>
    ⟨fun hctx => ⟨fun hexp => (refused_addressByteDue hclock hctx hexp).1, fun hexp =>
      (refused_addressByteDue hclock hctx hexp).2, fun hexp a d => ?_⟩, fun hctx hexp b => ?_, fun hctx hexp => ?_,
      fun hctx hexp => ⟨fun hdir b => ?_, fun hdir => ?_⟩⟩, fun p hclock => ⟨fun hctx => ?_, fun n c hctx b => ?_, fun hctx a d => ?_⟩,
    fun p hstopped => ?_, fun e hnone => ?_, fun m => ?_⟩
  · simp only [exec, execBadCommand, h, if_neg hctx]
    rfl
  · exact refused_addressByteNotDue hclock (by rcases hctx with h | h | h <;> rw [h] <;> simp) (.inl hexp) a d
  · simp only [exec, execDataByte, hclock, hctx, hexp]
    rfl
  · simp only [exec, execHostAcknowledge, execHostNotAcknowledge, hclock, hctx, hexp]
    exact ⟨rfl, rfl⟩
  · simp only [exec, execDataByte, hclock, hctx, hexp, hdir]
    rfl
  · simp only [exec, execHostAcknowledge, execHostNotAcknowledge, hclock, hctx, hexp, hdir]
    exact ⟨rfl, rfl⟩
  · simp only [exec, execHostAcknowledge, execHostNotAcknowledge, hclock, hctx]
    exact ⟨rfl, rfl⟩
  · simp only [exec, execDataByte, hclock, hctx]
    rfl
  · exact refused_addressByteNotDue hclock (by rcases hctx with h | ⟨n, c, h⟩ <;> rw [h] <;> simp) (.inr hctx) a d
  · simp only [exec, execAbandonExpiry, hstopped]
    rfl
  · simp only [exec, execLeaseExpiry, hnone]
  · obtain ⟨hcheck, haddress, hwrite, hread, hclosing, hstop⟩ := refused_engineNotAtStep m s
    obtain ⟨hpulse, hsucceeds⟩ := refused_recoveryStep m s
    refine ⟨fun hstopped => ?_, hcheck, haddress, hwrite, hread, hclosing, hstop, hpulse, hsucceeds, refused_noContest⟩
    have htimer : s.engines[m].hold.isRunning = false := by rw [hstopped]; rfl
    simp only [exec, execHoldTimerExpiry, htimer]
    rfl

end

end Sys2Proof.Machine
end

section
/-! SUPPORT. O11 settled: from a state in which ports, arbiters and engines correspond no event finds its blocks in
disagreement (log entry 6). -/

namespace Sys2Proof.Machine

/-- The row is taken or refused. -/
def Faultless (r : Result) : Prop := ∀ f, r ≠ .fault f

theorem faultless_next {t : State} : Faultless (.next t) := fun _ h => by cases h

theorem faultless_refused {x : Refusal} : Faultless (.refused x) := fun _ h => by cases h

section
variable {s : State} {m : Seg} {p : Port} {t : Transfer}

/-! ### What the laws say of a port that meets its engine -/

/-- The engine of a segment serves the port that writes through it, and waits for its next byte while none is in hand. -/
theorem RelayLaw.serves_writing (h : RelayLaw s) (hctx : s.ports[p].ctx = .relayWrite t) (hclock : s.ports[p].clockHeld = false) :
    s.engines[t.snap.seg].serves p .writing .none = true := by
  obtain ⟨hbyte, -⟩ := (h.1 p).released hclock
  have hholder := (h.orderly _).holder (h.relay_holder (.inl hctx))
  rw [State.seats_writing.2 ⟨t, hctx, rfl, hbyte⟩] at hholder
  obtain ⟨hserved, hclosing, hstate, -, hslot, hclocking⟩ := hholder.row
  refine Engine.serves_iff.2 ⟨hserved, hstate, ?_, hclosing⟩
  cases hactivity : s.engines[t.snap.seg].activity with
  | none => rfl
  | clocking => exact absurd (hclocking.1 hactivity) (by decide)
  | slotOpen => exact absurd hactivity hslot

/-- The engine of a segment serves the port that reads through it, with the slot of the supplied byte open. -/
theorem RelayLaw.serves_reading (h : RelayLaw s) (hctx : s.ports[p].ctx = .relayRead t) (hclock : s.ports[p].clockHeld = false)
    (hopen : s.ports[p].readClosed = false) : s.engines[t.snap.seg].serves p .reading .slotOpen = true := by
  obtain ⟨hbyte, -⟩ := (h.1 p).released hclock
  have hholder := (h.orderly _).holder (h.relay_holder (.inr hctx))
  rw [State.seats_reading.2 ⟨t, hctx, rfl, hbyte, hopen⟩] at hholder
  obtain ⟨hserved, hclosing, hstate, -, hclocking, hclosed⟩ := hholder.row
  refine Engine.serves_iff.2 ⟨hserved, hstate, ?_, hclosing⟩
  cases hactivity : s.engines[t.snap.seg].activity with
  | none => exact absurd (hclosed.1 hactivity) (by decide)
  | clocking => exact absurd (hclocking.1 hactivity) (by decide)
  | slotOpen => rfl

/-- An abandon timer runs only in the states in which the part may wait for a host. -/
theorem RelayLaw.timed_of_running (h : RelayLaw s) (hrunning : s.ports[p].abandon.isRunning = true) :
    s.ports[p].ctx.timed = true := by
  obtain ⟨-, -, htimer, -, -⟩ := h.1 p
  rw [hrunning] at htimer
  exact (Bool.and_eq_true_iff.1 htimer.symm).1

/-! ### What the laws say of an engine that meets its port -/

theorem RelayLaw.engineRow (h : RelayLaw s) (hclosing : s.engines[m].isClosing = false) : EngineRow s m := by
  obtain ⟨hrow, -⟩ := h.2.2 m
  rwa [hclosing] at hrow

theorem ServesAddressing.some (h : ServesAddressing s m) : ∃ p t, s.servedAddressing m = some (p, t) := by
  obtain ⟨p, hserved, -, hctx⟩ := h
  unfold Ctx.addressesAt at hctx
  split at hctx
  next t ht => exact ⟨p, t, State.servedAddressing_of hserved ht⟩
  next => cases hctx

/-- An engine in an address phase serves a port in ADDRESSING and has its target. -/
theorem RelayLaw.addressPhase (h : RelayLaw s) (hclosing : s.engines[m].isClosing = false)
    (hstate : s.engines[m].state = .starting ∨ s.engines[m].state = .address) :
    (∃ p t, s.servedAddressing m = some (p, t)) ∧ ∃ x, s.engines[m].target = some x := by
  have hrow := h.engineRow hclosing
  have hphase : ServesAddressing s m ∧ s.engines[m].target = s.engines[m].served.bind s.targetOf := by
    rcases hstate with hstate | hstate <;> simp only [EngineRow, hstate] at hrow
    · exact ⟨hrow.1, hrow.2.2⟩
    · exact ⟨hrow.1, hrow.2.2.2⟩
  obtain ⟨hserves, htarget⟩ := hphase
  obtain ⟨p, t, hp⟩ := hserves.some
  obtain ⟨hserved, hctx⟩ := State.servedAddressing_some hp
  refine ⟨⟨p, t, hp⟩, (t.snap.target, t.dir), ?_⟩
  rw [htarget, hserved]
  simp only [Option.bind_some, State.targetOf, hctx]
  rfl

/-- An engine in STARTING closes nothing. -/
theorem RelayLaw.starting_open (h : RelayLaw s) (hstate : s.engines[m].state = .starting) :
    s.engines[m].isClosing = false := by
  obtain ⟨hrow, -⟩ := h.2.2 m
  refine Bool.eq_false_iff.2 fun hclosing => ?_
  rw [if_pos hclosing, hstate] at hrow
  obtain ⟨-, -, -, hbyte, -⟩ := hrow
  rcases hbyte with hbyte | hbyte | hbyte <;> cases hbyte

/-- An engine in a data byte serves a port that relays. -/
theorem RelayLaw.dataPhase (h : RelayLaw s) (hclosing : s.engines[m].isClosing = false)
    (hstate : s.engines[m].state = .writing ∨ s.engines[m].state = .reading) : ∃ p t, s.servedRelay m = some (p, t) := by
  have hrow := h.engineRow hclosing
  rcases hstate with hstate | hstate <;> simp only [EngineRow, hstate] at hrow
  · obtain ⟨-, -, p, t, hserved, hctx, -⟩ := hrow
    exact ⟨p, t, State.servedRelay_of hserved (.inl hctx)⟩
  · obtain ⟨-, p, t, hserved, hctx, -⟩ := hrow
    exact ⟨p, t, State.servedRelay_of hserved (.inr hctx)⟩

/-- No line is timed for a QUIET engine. -/
theorem RelayLaw.quiet_untimed (h : RelayLaw s) (hstate : s.engines[m].state = .quiet) : s.engines[m].hold.isRunning = false := by
  obtain ⟨-, -, -, ⟨hclock, hdata, -⟩, -⟩ := h.2.2 m
  refine Bool.eq_false_iff.2 fun hrunning => ?_
  rcases Bool.or_eq_true_iff.1 hrunning with hline | hline
  · have hwatch := hclock hline
    simp only [Engine.watches, hstate] at hwatch
    cases hwatch
  · have hneeds := hdata hline
    rw [hstate] at hneeds
    rcases hneeds with hneeds | hneeds | ⟨hneeds, -⟩ <;> cases hneeds

/-! ### The rows that have a fault -/

theorem RelayLaw.dataByte_faultless (h : RelayLaw s) (p : Port) (b : Byte) : Faultless (execDataByte p b s) := by
  unfold execDataByte
  dsimp only
  cases hclock : s.ports[p].clockHeld with
  | true => exact faultless_refused
  | false =>
    cases hctx : s.ports[p].ctx with
    | relayWrite t =>
      simp only [h.serves_writing hctx hclock]
      cases s.ports[p].addrExpected
      · exact faultless_next
      · exact faultless_refused
    | broken t =>
      cases s.ports[p].addrExpected
      · cases hdir : t.dir
        · simp only [hdir]; exact faultless_next
        · simp only [hdir]; exact faultless_refused
      · exact faultless_refused
    | relayRead t => cases s.ports[p].addrExpected <;> exact faultless_refused
    | idle | commandIn => exact faultless_next
    | responseOut | waiting | addressing => exact faultless_refused

theorem RelayLaw.hostAcknowledge_faultless (h : RelayLaw s) (p : Port) : Faultless (execHostAcknowledge p s) := by
  unfold execHostAcknowledge
  dsimp only
  cases hclock : s.ports[p].clockHeld with
  | true => exact faultless_refused
  | false =>
    cases hctx : s.ports[p].ctx with
    | relayRead t =>
      cases s.ports[p].addrExpected
      · cases hopen : s.ports[p].readClosed
        · simp only [h.serves_reading hctx hclock hopen]
          exact faultless_next
        · exact faultless_next
      · exact faultless_refused
    | broken t =>
      cases s.ports[p].addrExpected
      · cases hdir : t.dir
        · simp only [hdir]; exact faultless_refused
        · simp only [hdir]; exact faultless_next
      · exact faultless_refused
    | relayWrite t => cases s.ports[p].addrExpected <;> exact faultless_refused
    | responseOut n closed => cases closed <;> exact faultless_next
    | idle => exact faultless_next
    | commandIn | waiting | addressing => exact faultless_refused

theorem RelayLaw.hostNotAcknowledge_faultless (h : RelayLaw s) (p : Port) : Faultless (execHostNotAcknowledge p s) := by
  unfold execHostNotAcknowledge
  dsimp only
  cases hclock : s.ports[p].clockHeld with
  | true => exact faultless_refused
  | false =>
    cases hctx : s.ports[p].ctx with
    | relayRead t =>
      cases s.ports[p].addrExpected
      · cases hopen : s.ports[p].readClosed
        · simp only [h.serves_reading hctx hclock hopen]
          exact faultless_next
        · exact faultless_next
      · exact faultless_refused
    | broken t =>
      cases s.ports[p].addrExpected
      · cases hdir : t.dir
        · simp only [hdir]; exact faultless_refused
        · simp only [hdir]; exact faultless_next
      · exact faultless_refused
    | relayWrite t => cases s.ports[p].addrExpected <;> exact faultless_refused
    | responseOut | idle => exact faultless_next
    | commandIn | waiting | addressing => exact faultless_refused

theorem RelayLaw.abandonExpiry_faultless (h : RelayLaw s) (p : Port) : Faultless (execAbandonExpiry p s) := by
  unfold execAbandonExpiry
  cases hrunning : s.ports[p].abandon.isRunning with
  | false => exact faultless_refused
  | true =>
    have htimed := h.timed_of_running hrunning
    cases hctx : s.ports[p].ctx with
    | idle | waiting | addressing =>
      rw [hctx] at htimed
      cases htimed
    | _ => exact faultless_next

theorem RelayLaw.lineCheckPassed_faultless (h : RelayLaw s) (m : Seg) : Faultless (execLineCheckPassed m s) := by
  unfold execLineCheckPassed
  dsimp only
  cases hmay : s.engines[m].mayStart with
  | false => exact faultless_refused
  | true =>
    obtain ⟨hstate, -⟩ := Engine.mayStart_iff.1 hmay
    obtain ⟨-, x, hx⟩ := h.addressPhase (h.starting_open hstate) (.inl hstate)
    simp only [hx]
    exact faultless_next

theorem RelayLaw.targetAnswer_faultless (h : RelayLaw s) (m : Seg) :
    Faultless (execTargetAcknowledgesAddress m s) ∧ Faultless (execTargetNack m s) := by
  unfold execTargetAcknowledgesAddress execTargetNack
  cases hclocks : s.engines[m].clocks .address with
  | false => exact ⟨faultless_refused, faultless_refused⟩
  | true =>
    obtain ⟨hstate, -, hclosing⟩ := Engine.clocks_iff.1 hclocks
    obtain ⟨⟨p, t, hp⟩, -⟩ := h.addressPhase hclosing (.inr hstate)
    simp only [hp]
    exact ⟨faultless_next, faultless_next⟩

theorem RelayLaw.writeByteAnswered_faultless (h : RelayLaw s) (m : Seg) (acked : Bool) :
    Faultless (execWriteByteAnswered m acked s) := by
  unfold execWriteByteAnswered
  cases hclocks : s.engines[m].clocks .writing with
  | false => exact faultless_refused
  | true =>
    obtain ⟨hstate, -, hclosing⟩ := Engine.clocks_iff.1 hclocks
    obtain ⟨p, t, hp⟩ := h.dataPhase hclosing (.inl hstate)
    simp only [hp]
    exact faultless_next

theorem RelayLaw.readByteFetched_faultless (h : RelayLaw s) (m : Seg) (b : Byte) : Faultless (execReadByteFetched m b s) := by
  unfold execReadByteFetched
  cases hclocks : s.engines[m].clocks .reading with
  | false => exact faultless_refused
  | true =>
    obtain ⟨hstate, -, hclosing⟩ := Engine.clocks_iff.1 hclocks
    obtain ⟨p, t, hp⟩ := h.dataPhase hclosing (.inr hstate)
    simp only [hp]
    exact faultless_next

theorem RelayLaw.holdTimerExpiry_faultless (h : RelayLaw s) (m : Seg) : Faultless (execHoldTimerExpiry m s) := by
  unfold execHoldTimerExpiry
  dsimp only
  cases hrunning : s.engines[m].hold.isRunning with
  | false => exact faultless_refused
  | true =>
    cases hclosing : s.engines[m].isClosing with
    | true => exact faultless_next
    | false =>
      cases hstate : s.engines[m].state with
      | quiet =>
        rw [h.quiet_untimed hstate] at hrunning
        cases hrunning
      | writing =>
        obtain ⟨p, t, hp⟩ := h.dataPhase hclosing (.inl hstate)
        simp only [hp]
        exact faultless_next
      | reading =>
        obtain ⟨p, t, hp⟩ := h.dataPhase hclosing (.inr hstate)
        simp only [hp]
        exact faultless_next
      | _ => exact faultless_next

/-- A message of the part in shared mode has a port to lose it, or is being closed (R98 to R101). -/
theorem RelayLaw.lose_faultless (h : RelayLaw s) (hcontends : s.engines[m].contends = true) : Faultless (s.lose m) := by
  simp only [Engine.contends, Bool.and_eq_true, decide_eq_true_eq] at hcontends
  obtain ⟨⟨-, howned⟩, hrecovering⟩ := hcontends
  unfold State.lose
  dsimp only
  cases hclosing : s.engines[m].isClosing with
  | true => exact faultless_next
  | false =>
    cases hstate : s.engines[m].state with
    | starting | address =>
      obtain ⟨⟨p, t, hp⟩, -⟩ := h.addressPhase hclosing (by rw [hstate]; simp)
      simp only [hp]
      exact faultless_next
    | writing | reading =>
      obtain ⟨p, t, hp⟩ := h.dataPhase hclosing (by rw [hstate]; simp)
      simp only [hp]
      cases s.servedAddressing m <;> exact faultless_next
    | stopping => exact faultless_next
    | recovering => exact absurd hstate hrecovering
    | quiet =>
      have hrow := h.engineRow hclosing
      simp only [EngineRow, hstate] at hrow
      obtain ⟨-, -, hfree, -⟩ := hrow
      rw [howned] at hfree
      cases hfree

theorem RelayLaw.arbitrationLoss_faultless (h : RelayLaw s) (m : Seg) : Faultless (execArbitrationLoss m s) := by
  unfold execArbitrationLoss
  cases hcontends : s.engines[m].contends with
  | true => exact h.lose_faultless hcontends
  | false => exact faultless_refused

theorem RelayLaw.foreignStart_faultless (h : RelayLaw s) (m : Seg) : Faultless (execForeignStart m s) := by
  unfold execForeignStart
  dsimp only
  cases hcontends : s.engines[m].contends with
  | true => exact h.lose_faultless hcontends
  | false =>
    rw [if_neg (by decide)]
    split <;> exact faultless_next

theorem RelayLaw.foreignStop_faultless (h : RelayLaw s) (m : Seg) (linesHigh : Bool) :
    Faultless (execForeignStop m linesHigh s) := by
  unfold execForeignStop
  dsimp only
  cases hcontends : s.engines[m].contends with
  | true => exact h.lose_faultless hcontends
  | false =>
    rw [if_neg (by decide)]
    split
    · exact faultless_next
    split
    · split <;> exact faultless_next
    split
    · split
      next hstart =>
        simp only [Bool.and_eq_true, decide_eq_true_eq] at hstart
        obtain ⟨⟨-, hstate⟩, -⟩ := hstart
        obtain ⟨-, x, hx⟩ := h.addressPhase (h.starting_open hstate) (.inl hstate)
        simp only [hx]
        exact faultless_next
      next => exact faultless_next
    · exact faultless_next

/-! ### The rows without one -/

theorem startCondition_faultless (p : Port) (s : State) : Faultless (s.startCondition p) := by
  unfold State.startCondition
  dsimp only
  cases s.ports[p].clockHeld with
  | true => exact faultless_refused
  | false =>
    cases s.ports[p].ctx with
    | waiting | addressing => exact faultless_refused
    | _ => exact faultless_next

theorem stop_faultless (p : Port) (s : State) : Faultless (execStop p s) := by
  unfold execStop
  dsimp only
  cases s.ports[p].clockHeld with
  | true => exact faultless_refused
  | false =>
    cases s.ports[p].ctx with
    | waiting | addressing => exact faultless_refused
    | _ => exact faultless_next

theorem addressByte_faultless (p : Port) (a : Addr) (d : Dir) (s : State) : Faultless (execAddressByte p a d s) := by
  unfold execAddressByte
  dsimp only
  cases s.ports[p].clockHeld with
  | true => exact faultless_refused
  | false =>
    cases s.ports[p].ctx <;> cases s.ports[p].addrExpected
    case idle.false | idle.true | relayWrite.true | relayRead.true | broken.true => exact faultless_next
    all_goals exact faultless_refused

theorem waitExpiry_faultless (p : Port) (s : State) : Faultless (execWaitExpiry p s) := by
  unfold execWaitExpiry
  split
  · split
    · exact faultless_next
    · exact faultless_refused
  · split
    · exact faultless_next
    · exact faultless_refused
  · exact faultless_refused

theorem leaseExpiry_faultless (e : EntryIx) (s : State) : Faultless (execLeaseExpiry e s) := by
  unfold execLeaseExpiry
  split
  · exact faultless_next
  · exact faultless_refused

theorem faultless_ite {c : Prop} [Decidable c] {t : State} {x : Refusal} : Faultless (if c then .next t else .refused x) := by
  split
  · exact faultless_next
  · exact faultless_refused

theorem commandRow_faultless (p : Port) (c : Command) (s : State) : Faultless (s.commandRow p c) := faultless_ite

theorem badCommand_faultless (p : Port) (code : Byte) (s : State) : Faultless (execBadCommand p code s) := by
  unfold execBadCommand
  split
  · exact faultless_refused
  · exact faultless_ite

theorem recoveryPulse_faultless (m : Seg) (high : Bool) (s : State) : Faultless (execRecoveryPulse m high s) := by
  unfold execRecoveryPulse
  dsimp only
  split
  · split <;> exact faultless_next
  · exact faultless_refused

theorem lineHeld_faultless (m : Seg) (l : Line) (s : State) : Faultless (execLineHeld m l s) := by
  unfold execLineHeld
  dsimp only
  split
  · exact faultless_next
  · split <;> exact faultless_next

theorem lineReleased_faultless (m : Seg) (l : Line) (s : State) : Faultless (execLineReleased m l s) := by
  unfold execLineReleased
  split <;> exact faultless_next

/-! ### Every row -/

theorem exec_faultless (h : RelayLaw s) (i : Instr) : Faultless (exec i s) := by
  cases i with
  | deviceReset adr admSel => exact faultless_next
  | start p | repeatedStart p => exact startCondition_faultless p s
  | addressByte p a d => exact addressByte_faultless p a d s
  | dataByte p b => exact h.dataByte_faultless p b
  | hostAcknowledge p => exact h.hostAcknowledge_faultless p
  | hostNotAcknowledge p => exact h.hostNotAcknowledge_faultless p
  | stop p => exact stop_faultless p s
  | abandonExpiry p => exact h.abandonExpiry_faultless p
  | waitExpiry p => exact waitExpiry_faultless p s
  | lineCheckPassed m => exact h.lineCheckPassed_faultless m
  | targetAcknowledgesAddress m => exact (h.targetAnswer_faultless m).1
  | targetNack m => exact (h.targetAnswer_faultless m).2
  | writeByteAnswered m acked => exact h.writeByteAnswered_faultless m acked
  | readByteFetched m b => exact h.readByteFetched_faultless m b
  | closingByteFinished m acked => exact faultless_ite
  | stopComplete m => exact faultless_ite
  | holdTimerExpiry m => exact h.holdTimerExpiry_faultless m
  | recoveryPulse m high => exact recoveryPulse_faultless m high s
  | recoverySucceeded m => exact faultless_ite
  | foreignStart m => exact h.foreignStart_faultless m
  | foreignStop m high => exact h.foreignStop_faultless m high
  | arbitrationLoss m => exact h.arbitrationLoss_faultless m
  | leaseExpiry e => exact leaseExpiry_faultless e s
  | badCommand p code => exact badCommand_faultless p code s
  | lineHeld m l => exact lineHeld_faultless m l s
  | lineReleased m l => exact lineReleased_faultless m l s
  | _ => exact commandRow_faultless _ _ s

end

/-- Settles O11: the queued command or the due expiry runs on a state that keeps the laws, and no row faults there. -/
theorem relayLawExcludesFaults : Obligations.RelayLawExcludesFaults := by
  unfold Obligations.RelayLawExcludesFaults
  intro s h
  change Faultless (step s)
  unfold step
  cases s.pending with
  | cons i rest => exact exec_faultless (h.of_same (t := { s with pending := rest }) rfl rfl rfl) i
  | nil =>
    change Faultless (idle s)
    unfold idle
    cases s.dueExpiries with
    | nil => exact faultless_next
    | cons i _ => exact exec_faultless h i

end Sys2Proof.Machine
end

section
/-! SUPPORT. O52 settled: a hand-over serves the queue in order, or takes the pending disable (R63). -/

namespace Sys2Proof.Machine

/-! ### What a hand-over leaves alone -/

/-- Everything that is no part of the relay path. -/
def State.tables (s : State) :
    ((Vector Entry 48 × Vector (Option Seg) 4 × Vector RightsRow 4 × BitVec 2 × BitVec 2 × List Instr) ×
      Vector (Option Lease) 16 × Byte × Vector Response 4) × Vector FrameBuffer 4 × Vector NoticeQueue 4 :=
  (s.records, s.buffers, s.notices)

section
variable {s t : State}

theorem tables_eq_iff : t.tables = s.tables ↔
    SettingsSame s t ∧ LeasesSame s t ∧ FramesSame s t ∧ t.notices = s.notices := by
  simp only [State.tables, State.records, Prod.mk.injEq, settings_eq_iff, LeasesSame, FramesSame]
  tauto

theorem State.refuseWaiter_tables (s : State) (m : Seg) (r : Reason) (p : Port) : (s.refuseWaiter m r p).tables = s.tables := by
  obtain ⟨-, hnotices, hsettings, hleases, hframes⟩ := s.refuseWaiter_frame m r p
  exact tables_eq_iff.2 ⟨hsettings, hleases, hframes, hnotices⟩

theorem State.refuseAll_tables (m : Seg) (r : Reason) (ps : List Port) (s : State) :
    (State.refuseAll m r ps s).tables = s.tables := by
  obtain ⟨-, hnotices, hsettings, hleases, hframes⟩ := State.refuseAll_frame m r ps s
  exact tables_eq_iff.2 ⟨hsettings, hleases, hframes, hnotices⟩

/-- The check at grant looks at the directory and the leases alone (R50, R51). -/
theorem State.checkAtGrant_congr (h : t.tables = s.tables) : t.checkAtGrant = s.checkAtGrant := by
  obtain ⟨⟨hdirectory, -⟩, ⟨hleases, -⟩, -, -⟩ := tables_eq_iff.1 h
  funext p d n
  simp only [State.checkAtGrant, State.route, State.entryReason, State.leaseReason, State.heldOn, State.findLease,
    State.routedElsewhere, hdirectory, hleases]
  rfl

end

/-! ### Ports turned away -/

section
variable {s : State} {m : Seg}

/-- A port that waits for a segment is turned away, whatever its place. -/
theorem State.refuseWaiter_transfer {p : Port} {t : Transfer} (h : s.ports[p].ctx.transfer? = some t) (r : Reason) :
    s.refuseWaiter m r p = (s.stopWait m p).onPort p (HostPort.turnedAway r t) := by
  simp only [State.refuseWaiter, h]
  rfl

theorem State.refuseWaiter_port {p : Port} {t : Transfer} (h : s.ports[p].ctx.transfer? = some t) (r : Reason) :
    (s.refuseWaiter m r p).ports[p] = s.ports[p].turnedAway r t := by
  rw [State.refuseWaiter_transfer h]
  exact tabUpd_self _ _ _

theorem State.refuseWaiter_segs_self (s : State) (m : Seg) (r : Reason) (p : Port) : (s.refuseWaiter m r p).segs[m] =
    { s.segs[m] with waits := tabUpd s.segs[m].waits p (fun _ => .stopped) } := by
  rw [State.refuseWaiter_segs, State.stopWait_segs, tabUpd_self]

theorem State.refuseWaiter_segs_other {k : Seg} (hk : k ≠ m) (s : State) (r : Reason) (p : Port) :
    (s.refuseWaiter m r p).segs[k] = s.segs[k] := by
  rw [State.refuseWaiter_segs, State.stopWait_segs, tabUpd_other _ _ _ _ hk.symm]

theorem State.refuseAll_ports_other {q : Port} {ps : List Port} (hq : q ∉ ps) (r : Reason) (s : State) :
    (State.refuseAll m r ps s).ports[q] = s.ports[q] := by
  induction ps generalizing s with
  | nil => rfl
  | cons p ps ih =>
    rw [List.mem_cons, not_or] at hq
    exact (ih hq.2 (s.refuseWaiter m r p)).trans (s.refuseWaiter_other m r p q hq.1)

/-- A port of the list is turned away once: after that it has no transfer. -/
theorem State.refuseAll_ports {q : Port} {ps : List Port} {t : Transfer} (hq : q ∈ ps) (r : Reason) {s : State}
    (ht : s.ports[q].ctx.transfer? = some t) : (State.refuseAll m r ps s).ports[q] = s.ports[q].turnedAway r t := by
  induction ps generalizing s with
  | nil => cases hq
  | cons p ps ih =>
    by_cases hp : q = p
    · subst hp
      have hdone := State.refuseWaiter_port (m := m) ht r
      exact (State.refuseAll_untransferred m r ps (s.refuseWaiter m r q) (by rw [hdone]; rfl)).trans hdone
    · have hsame := s.refuseWaiter_other m r p q hp
      have hrest := ih (s := s.refuseWaiter m r p) ((List.mem_cons.1 hq).resolve_left hp) (by rw [hsame, ht])
      rw [hsame] at hrest
      exact hrest

theorem State.refuseAll_segs_other {k : Seg} (hk : k ≠ m) (r : Reason) (ps : List Port) (s : State) :
    (State.refuseAll m r ps s).segs[k] = s.segs[k] := by
  induction ps generalizing s with
  | nil => rfl
  | cons p ps ih => exact (ih (s.refuseWaiter m r p)).trans (State.refuseWaiter_segs_other hk s r p)

end

/-! ### The queue served -/

section
variable {m : Seg}

/-- Port `q` is turned away from `m` with `r`, between `s` and `u`. -/
def TurnedAway (m : Seg) (s u : State) (q : Port) (r : Reason) : Prop :=
  u.segs[m].waits[q] = .stopped ∧ ∀ t, s.ports[q].ctx = .waiting t → u.ports[q] = s.ports[q].turnedAway r t

/-- What the check at grant answers for the transfer that port `q` waits with. -/
def Verdict (s : State) (q : Port) (r : Option Reason) : Prop :=
  ∀ t, s.ports[q].ctx = .waiting t → s.checkAtGrant q t.dir t.snap = r

/-- Port `q` and its wait timer at `m` stay. -/
def Stays (m : Seg) (s u : State) (q : Port) : Prop := u.ports[q] = s.ports[q] ∧ u.segs[m].waits[q] = s.segs[m].waits[q]

/-- What lies beyond the ports of a queue, its arbiter and its engine stays. -/
structure ServedAlone (m : Seg) (ps : List Port) (s u : State) : Prop where
  elsewhere : ∀ k : Seg, k ≠ m → u.segs[k] = s.segs[k] ∧ u.engines[k] = s.engines[k]
  others : ∀ q : Port, q ∉ ps → Stays m s u q
  tables : u.tables = s.tables
  pending : u.segs[m].disablePending = s.segs[m].disablePending

/-- The segment is left IDLE, or with the first of `behind` as its holder and the rest queued. -/
def HandsTo (m : Seg) (behind : List Port) (s u : State) : Prop :=
  (behind = [] ∧ u.segs[m].state = .idle ∧ u.segs[m].queue = [] ∧ u.engines[m] = s.engines[m]) ∨
    ∃ (p : Port) (t : Transfer) (rest : List Port), behind = p :: rest ∧ s.ports[p].ctx = .waiting t ∧
      Verdict s p none ∧ u.segs[m].state = .active p ∧ u.segs[m].queue = rest ∧
      u.ports[p] = s.ports[p].stretching (.addressing t) ∧ u.segs[m].waits[p] = s.segs[m].waits[p] ∧
      (∀ q ∈ rest, Stays m s u q) ∧
      u.engines[m] = s.engines[m].order p (some (t.snap.target, t.dir)) s.segs[m].shared

/-- The queue `ps` served in order. -/
structure Served (m : Seg) (ps : List Port) (s u : State) : Prop extends ServedAlone m ps s u where
  inOrder : ∃ refused behind : List Port, ps = refused ++ behind ∧
    (∀ q ∈ refused, ∃ r, Verdict s q (some r) ∧ TurnedAway m s u q r) ∧ HandsTo m behind s u

theorem served_nil (m : Seg) (s : State) : Served m [] s (State.serve m [] s) := by
  rw [State.serve_nil]
  refine { elsewhere := fun k hk => ⟨tabUpd_other _ _ _ _ hk.symm, rfl⟩, others := fun q _ => ⟨rfl, ?_⟩, tables := rfl, pending := ?_,
           inOrder := ⟨[], [], rfl, fun _ h => (by cases h), .inl ⟨rfl, ?_, ?_, rfl⟩⟩ }
  all_goals rw [State.onSeg_self]

/-- A head that the check at grant accepts becomes the holder. -/
theorem served_granted {p : Port} {rest : List Port} {s : State} {t : Transfer} (hctx : s.ports[p].ctx = .waiting t)
    (hcheck : s.checkAtGrant p t.dir t.snap = none) (hp : p ∉ rest) : Served m (p :: rest) s (State.serve m (p :: rest) s) := by
  rw [State.serve_granted hctx hcheck]
  have hsegs : ((s.onSeg m (fun a => { a with queue := rest })).grant m p t).segs[m] =
      { s.segs[m] with queue := rest, state := .active p } := by
    rw [State.grant_segs, State.onSeg_self]
  have hstays : ∀ q, q ≠ p → Stays m s ((s.onSeg m (fun a => { a with queue := rest })).grant m p t) q := fun q hq =>
    ⟨State.grant_other hq.symm m t, by rw [hsegs]⟩
  refine { elsewhere := fun k hk => ⟨?_, tabUpd_other _ _ _ _ hk.symm⟩, others := fun q hq => hstays q (List.ne_of_not_mem_cons hq),
           tables := rfl, pending := by rw [hsegs], inOrder := ⟨[], p :: rest, rfl, fun _ h => (by cases h), .inr
             ⟨p, t, rest, rfl, hctx, ?_, by rw [hsegs], by rw [hsegs], tabUpd_self _ _ _, by rw [hsegs], fun q hq => hstays q ?_, ?_⟩⟩ }
  · exact (tabUpd_other _ _ _ _ hk.symm).trans (tabUpd_other _ _ _ _ hk.symm)
  · intro u hu
    cases hctx.symm.trans hu
    exact hcheck
  · rintro rfl
    exact hp hq
  · rw [State.grant_engines, State.onSeg_self]
    rfl

/-- The head `p` of a queue, in WAITING with `t`, is turned away with `r`, and `rest` stays queued. -/
structure HeadTurnedAway (m : Seg) (p : Port) (rest : List Port) (t : Transfer) (r : Reason) (s v : State) : Prop where
  port : v.ports[p] = s.ports[p].turnedAway r t
  other : OtherPortsSame p s v
  arbiter : v.segs[m] = { s.segs[m] with queue := rest, waits := tabUpd s.segs[m].waits p (fun _ => .stopped) }
  elsewhere : ∀ k : Seg, k ≠ m → v.segs[k] = s.segs[k]
  engines : v.engines = s.engines
  tables : v.tables = s.tables

theorem headTurnedAway {p : Port} {s : State} {t : Transfer} (hctx : s.ports[p].ctx = .waiting t) (rest : List Port) (r : Reason) :
    HeadTurnedAway m p rest t r s ((s.onSeg m (fun a => { a with queue := rest })).refuseWaiter m r p) := by
  have htransfer : (s.onSeg m (fun a => { a with queue := rest })).ports[p].ctx.transfer? = some t := by
    rw [State.onSeg_ports, hctx]
    rfl
  exact {
    port := State.refuseWaiter_port htransfer r
    other := State.refuseWaiter_other _ m r p
    arbiter := by rw [State.refuseWaiter_segs_self, State.onSeg_self]
    elsewhere := fun k hk => (State.refuseWaiter_segs_other hk _ r p).trans (tabUpd_other _ _ _ _ hk.symm)
    engines := (State.refuseWaiter_frame _ m r p).1
    tables := State.refuseWaiter_tables _ m r p }

section
variable {p : Port} {rest : List Port} {s u v : State} {t : Transfer} {r : Reason}

theorem HeadTurnedAway.stays (h : HeadTurnedAway m p rest t r s v) {q : Port} (hq : q ≠ p) : Stays m s v q :=
  ⟨h.other q hq, by rw [h.arbiter]; exact tabUpd_other _ _ _ _ hq.symm⟩

theorem Stays.trans {q : Port} (h : Stays m s v q) (h' : Stays m v u q) : Stays m s u q :=
  ⟨h'.1.trans h.1, h'.2.trans h.2⟩

theorem HeadTurnedAway.verdict (h : HeadTurnedAway m p rest t r s v) {q : Port} (hq : q ≠ p) {x : Option Reason}
    (hv : Verdict v q x) : Verdict s q x := fun w hw => by
  rw [← State.checkAtGrant_congr h.tables]
  exact hv w (by rw [h.other q hq, hw])

theorem HeadTurnedAway.turnedAway (h : HeadTurnedAway m p rest t r s v) {q : Port} (hq : q ≠ p) {x : Reason}
    (ha : TurnedAway m v u q x) : TurnedAway m s u q x :=
  ⟨ha.1, fun w hw => by rw [← h.other q hq]; exact ha.2 w (by rw [h.other q hq, hw])⟩

theorem HeadTurnedAway.handsTo (h : HeadTurnedAway m p rest t r s v) {behind : List Port} (hp : p ∉ behind)
    (hto : HandsTo m behind v u) : HandsTo m behind s u := by
  have hengine : v.engines[m] = s.engines[m] := by rw [h.engines]
  rcases hto with ⟨hnone, hstate, hqueue, hsame⟩ | ⟨q, w, others, rfl, hctx, hcheck, hstate, hqueue, hport, hwait, hothers, horder⟩
  · exact .inl ⟨hnone, hstate, hqueue, hsame.trans hengine⟩
  · rw [List.mem_cons, not_or] at hp
    have hstays := h.stays (Ne.symm hp.1)
    refine .inr ⟨q, w, others, rfl, by rw [← hstays.1, hctx], h.verdict (Ne.symm hp.1) hcheck, hstate, hqueue,
      by rw [hport, hstays.1], hwait.trans hstays.2, fun x hx => ?_, ?_⟩
    · exact (h.stays (fun hxp => hp.2 (hxp ▸ hx))).trans (hothers x hx)
    · rw [horder, hengine, h.arbiter]

/-- A head that the check at grant refuses is turned away, and the rest is served. -/
theorem Served.refused (hctx : s.ports[p].ctx = .waiting t) (hcheck : s.checkAtGrant p t.dir t.snap = some r) (hp : p ∉ rest)
    (h : HeadTurnedAway m p rest t r s v) (hrest : Served m rest v u) : Served m (p :: rest) s u := by
  obtain ⟨refused, behind, hsplit, hrefused, hto⟩ := hrest.inOrder
  have hne : ∀ q ∈ rest, q ≠ p := fun q hq hqp => hp (hqp ▸ hq)
  have hhead : Verdict s p (some r) ∧ TurnedAway m s u p r := by
    have hlast := hrest.others p hp
    refine ⟨fun w hw => ?_, ?_, fun w hw => ?_⟩
    · cases hctx.symm.trans hw
      exact hcheck
    · rw [hlast.2, h.arbiter]
      exact tabUpd_self _ _ _
    · cases hctx.symm.trans hw
      rw [hlast.1, h.port]
  refine { elsewhere := fun k hk => ?_, others := fun q hq => ?_, tables := hrest.tables.trans h.tables, pending := ?_,
           inOrder := ⟨p :: refused, behind, by rw [hsplit]; rfl, fun q hq => ?_, h.handsTo ?_ hto⟩ }
  · obtain ⟨hseg, hengine⟩ := hrest.elsewhere k hk
    exact ⟨hseg.trans (h.elsewhere k hk), by rw [hengine, h.engines]⟩
  · rw [List.mem_cons, not_or] at hq
    exact (h.stays hq.1).trans (hrest.others q hq.2)
  · rw [hrest.pending, h.arbiter]
  · rcases List.mem_cons.1 hq with rfl | hq
    · exact ⟨r, hhead⟩
    · obtain ⟨x, hverdict, haway⟩ := hrefused q hq
      have hqp := hne q (by rw [hsplit]; exact List.mem_append_left _ hq)
      exact ⟨x, h.verdict hqp hverdict, h.turnedAway hqp haway⟩
  · exact fun hpb => hp (by rw [hsplit]; exact List.mem_append_right _ hpb)

end

/-- A queue of ports in WAITING is served from its head, each port judged as the state before the hand-over has it. -/
theorem served (ps : List Port) {s : State} (hnodup : ps.Nodup) (hwaiting : ∀ q ∈ ps, ∃ t, s.ports[q].ctx = .waiting t) :
    Served m ps s (State.serve m ps s) := by
  induction ps generalizing s with
  | nil => exact served_nil m s
  | cons p rest ih =>
    obtain ⟨hp, hrest⟩ := List.nodup_cons.1 hnodup
    obtain ⟨t, ht⟩ := hwaiting p List.mem_cons_self
    cases hcheck : s.checkAtGrant p t.dir t.snap with
    | none => exact served_granted ht hcheck hp
    | some r =>
      have haway := headTurnedAway (m := m) ht rest r
      rw [State.serve_refused ht hcheck]
      refine Served.refused ht hcheck hp haway (ih hrest fun q hq => ?_)
      rw [haway.other q (fun hqp => hp (hqp ▸ hq))]
      exact hwaiting q (List.mem_cons_of_mem _ hq)

end

/-- Settles O52: with a disable pending the whole queue is turned away, without one it is served in order. -/
theorem handOverServesQueueInOrder : Obligations.HandOverServesQueueInOrder := by
  unfold Obligations.HandOverServesQueueInOrder
  intro m s hnodup hwaiting u stays away verdict
  cases hdisable : s.segs[m].disablePending with
  | false =>
    have hserved : Served m s.segs[m].queue s u := by
      have h := served (m := m) s.segs[m].queue hnodup (fun q hq => (hwaiting q hq).imp fun _ => And.left)
      rwa [← State.handOver_serves hdisable] at h
    obtain ⟨hsettings, hleases, hframes, hnotices⟩ := tables_eq_iff.1 hserved.tables
    exact ⟨hserved.elsewhere, hserved.others, hsettings, hleases, hframes, hnotices, fun h => absurd h (by decide),
      fun _ => ⟨hserved.pending.trans hdisable, hserved.inOrder⟩⟩
  | true =>
    have hu : u = s.disableNow m := State.handOver_disabled hdisable
    obtain ⟨w, hw, hsegs⟩ := State.refuseAll_segs m .segmentDisabled s.segs[m].queue
      (s.onSeg m (fun a => { a with state := .disabled, disablePending := false, queue := [] }))
    have hus : u.segs[m] = { s.segs[m] with state := .disabled, disablePending := false, queue := [], waits := w } := by
      rw [hu]
      refine hsegs.trans ?_
      rw [State.onSeg_self]
    have hengines : u.engines = s.engines := by
      rw [hu]
      exact (State.refuseAll_frame ..).1
    have htables : u.tables = s.tables := by
      rw [hu]
      exact State.refuseAll_tables ..
    rw [State.onSeg_self] at hw
    obtain ⟨hsettings, hleases, hframes, hnotices⟩ := tables_eq_iff.1 htables
    refine ⟨fun k hk => ⟨?_, by rw [hengines]⟩, fun q hq => ⟨?_, ?_⟩, hsettings, hleases, hframes, hnotices,
      fun _ => ⟨by rw [hus], by rw [hus], by rw [hus], by rw [hengines], fun q hq => ⟨?_, fun t ht => ?_⟩⟩,
      fun h => absurd h (by decide)⟩
    · rw [hu]
      exact (State.refuseAll_segs_other hk _ _ _).trans (tabUpd_other _ _ _ _ hk.symm)
    · rw [hu]
      exact State.refuseAll_ports_other hq _ _
    · rw [hus]
      exact (hw q).trans (if_neg hq)
    · rw [hus]
      exact (hw q).trans (if_pos hq)
    · rw [hu]
      exact State.refuseAll_ports hq _ (by rw [State.onSeg_ports, ht]; rfl)

end Sys2Proof.Machine
end

section
/-! SUPPORT. O58 settled: a recovery's held lines, pulses, success and failure (R65, R66, R105 to R108). -/

namespace Sys2Proof.Machine

/-! ### The outcome is posted (R108) -/

section
variable {m : Seg}

/-- Posting one notice to each port of a list changes the Notice Queues alone. -/
theorem postEach_same (ps : List Port) (k : NoticeKind) (s : State) :
    ps.foldl (fun s p => s.post p k none (some m) 0#8) s =
      { s with notices := (ps.foldl (fun s p => s.post p k none (some m) 0#8) s).notices } := by
  induction ps generalizing s with
  | nil => rfl
  | cons p ps ih => exact ih (s.post p k none (some m) 0#8)

theorem postEach_notices {ps : List Port} (hps : ps.Nodup) (k : NoticeKind) (s : State) (q : Port) :
    (ps.foldl (fun s p => s.post p k none (some m) 0#8) s).notices[q] =
      if q ∈ ps then s.notices[q].store k none (some m) 0#8 else s.notices[q] := by
  induction ps generalizing s with
  | nil => rfl
  | cons p ps ih =>
    obtain ⟨hp, hrest⟩ := List.nodup_cons.1 hps
    rw [List.foldl_cons, ih hrest]
    by_cases hq : q = p
    · subst hq
      rw [if_neg hp, if_pos List.mem_cons_self]
      exact tabUpd_self _ _ _
    · have hsame : (s.post p k none (some m) 0#8).notices[q] = s.notices[q] := tabUpd_other _ _ _ _ (Ne.symm hq)
      simp only [hsame, List.mem_cons, hq, false_or]

theorem State.postOutcome_same (s : State) (m : Seg) (k : NoticeKind) :
    s.postOutcome m k = { s with notices := (s.postOutcome m k).notices } :=
  postEach_same _ _ _

/-- The outcome reaches the broken port and every port with the SEGMENT right, once each. -/
theorem State.postOutcome_notices (s : State) (m : Seg) (k : NoticeKind) (q : Port) : (s.postOutcome m k).notices[q] =
    if s.engines[m].brokenPort = some q ∨ s.rights[q].rights.segment = true then s.notices[q].store k none (some m) 0#8
    else s.notices[q] := by
  have haudience : q ∈ s.recoveryAudience m ↔ s.engines[m].brokenPort = some q ∨ s.rights[q].rights.segment = true := by
    simp only [State.recoveryAudience, allPorts, List.mem_filter, List.mem_finRange, true_and, Bool.or_eq_true,
      decide_eq_true_eq]
  have hnodup : (s.recoveryAudience m).Nodup := (List.nodup_finRange 4).filter _
  refine (postEach_notices hnodup k s q).trans ?_
  simp only [haudience]

/-! ### A failure (R66, R107) -/

theorem Arbiter.mem_stranded {a : Arbiter} {q : Port} : q ∈ a.stranded ↔ q ∈ a.queue ∨ a.state = .recovering (some q) := by
  unfold Arbiter.stranded
  rw [List.mem_append]
  refine or_congr_right ?_
  split
  next p hp => simp only [List.mem_singleton, hp, SegState.recovering.injEq, Option.some.injEq, eq_comm]
  next hp => exact iff_of_false List.not_mem_nil (hp q)

/-- The reason with which a failed recovery turns ports away: a pending disable takes effect, or the segment is in FAULT. -/
def Arbiter.failReason (a : Arbiter) : Reason := if a.disablePending = true then .segmentDisabled else .segmentFault

/-- The segment record after a failed recovery. -/
def Arbiter.failed (a : Arbiter) : Arbiter :=
  { a with state := if a.disablePending = true then .disabled else .fault, disablePending := false, queue := [] }

theorem State.failSegment_eq (s : State) (m : Seg) :
    s.failSegment m = State.refuseAll m s.segs[m].failReason s.segs[m].stranded (s.onSeg m Arbiter.failed) := by
  unfold State.failSegment Arbiter.failReason
  cases hd : s.segs[m].disablePending with
  | true =>
    have hclose : s.onSeg m Arbiter.failed =
        s.onSeg m (fun a => { a with state := .disabled, disablePending := false, queue := [] }) :=
      State.onSeg_congr (by rw [Arbiter.failed, hd]; rfl)
    rw [hclose]
    exact if_pos hd
  | false =>
    have hclose : s.onSeg m Arbiter.failed = s.onSeg m (fun a => { a with state := .fault, queue := [] }) :=
      State.onSeg_congr (by rw [Arbiter.failed, hd]; rfl)
    rw [hclose]
    exact if_neg (by rw [hd]; decide)

/-- The arbiter's part of a failure, between `s` and `t`. -/
structure SegmentFailed (m : Seg) (s t : State) : Prop where
  elsewhere : ∀ k : Seg, k ≠ m → t.segs[k] = s.segs[k]
  arbiter : t.segs[m] = { s.segs[m].failed with waits := t.segs[m].waits }
  waits : ∀ q ∈ s.segs[m].stranded, t.segs[m].waits[q] = .stopped
  turned : ∀ (q : Port) (x : Transfer), q ∈ s.segs[m].stranded → s.ports[q].ctx.transfer? = some x →
    t.ports[q] = s.ports[q].turnedAway s.segs[m].failReason x
  others : ∀ q : Port, q ∉ s.segs[m].stranded → t.ports[q] = s.ports[q]

theorem segmentFailed (m : Seg) (s : State) : SegmentFailed m s (s.failSegment m) := by
  rw [State.failSegment_eq]
  obtain ⟨w, hw, hsegs⟩ := State.refuseAll_segs m s.segs[m].failReason s.segs[m].stranded (s.onSeg m Arbiter.failed)
  rw [State.onSeg_self] at hsegs
  exact {
    elsewhere := fun k hk => (State.refuseAll_segs_other hk _ _ _).trans (tabUpd_other _ _ _ _ hk.symm)
    arbiter := by rw [hsegs]
    waits := fun q hq => by rw [hsegs]; exact (hw q).trans (if_pos hq)
    turned := fun q x hq hx => State.refuseAll_ports hq _ hx
    others := fun q hq => State.refuseAll_ports_other hq _ _ }

theorem State.failSegment_frame (s : State) (m : Seg) :
    (s.failSegment m).engines = s.engines ∧ (s.failSegment m).tables = s.tables := by
  rw [State.failSegment_eq]
  exact ⟨(State.refuseAll_frame ..).1, State.refuseAll_tables ..⟩

/-- What the outcome `k` of a recovery on `m` posts, between `s` and `t`, by the broken port and the rights of `s₀`. -/
def OutcomePosted (m : Seg) (k : NoticeKind) (s₀ s t : State) : Prop := ∀ q : Port, t.notices[q] =
  if s₀.engines[m].brokenPort = some q ∨ s₀.rights[q].rights.segment = true then s.notices[q].store k none (some m) 0#8
  else s.notices[q]

theorem State.postOutcome_posted {s₀ s : State} (k : NoticeKind) (hbroken : s.engines[m].brokenPort = s₀.engines[m].brokenPort)
    (hrights : s.rights = s₀.rights) : OutcomePosted m k s₀ s (s.postOutcome m k) := fun q => by
  rw [State.postOutcome_notices, hbroken, hrights]

/-- A recovery on `m` fails between `s` and `t`, the engine's record going by `f`. -/
structure RecoveryFailed (m : Seg) (f : Engine → Engine) (s t : State) : Prop extends SegmentFailed m s t where
  engines : t.engines = tabUpd s.engines m f
  posted : OutcomePosted m .segmentFault s s t
  settings : SettingsSame s t
  leases : LeasesSame s t
  frames : FramesSame s t

theorem tabUpd_congr {α : Type} {n : Nat} {v : Vector α n} {i : Fin n} {f g : α → α} (h : f v[i] = g v[i]) :
    tabUpd v i f = tabUpd v i g := by
  unfold tabUpd
  rw [h]

/-- A recovery whose engine goes by `f` before it fails. -/
theorem recoveryFails_failed {s : State} {f : Engine → Engine} (hbroken : (f s.engines[m]).brokenPort = s.engines[m].brokenPort)
    (acts : List BusAct) :
    RecoveryFailed m (fun x => (f x).endRecovery acts) s ((s.onEngine m f).recoveryFails m acts) := by
  have hrun : (s.onEngine m f).recoveryFails m acts =
      ((s.onEngine m fun x => (f x).endRecovery acts).failSegment m).postOutcome m .segmentFault := by
    rw [State.recoveryFails, State.onEngine_onEngine]
  obtain ⟨helse, harbiter, hwaits, hturned, hothers⟩ := segmentFailed m (s.onEngine m fun x => (f x).endRecovery acts)
  obtain ⟨hengines, htables⟩ := (s.onEngine m fun x => (f x).endRecovery acts).failSegment_frame m
  rw [hrun]
  generalize (s.onEngine m fun x => (f x).endRecovery acts).failSegment m = v at *
  obtain ⟨hsettings, hleases, hframes, hnotices⟩ := tables_eq_iff.1 htables
  have hposted : OutcomePosted m .segmentFault s v (v.postOutcome m .segmentFault) := by
    refine State.postOutcome_posted _ ?_ hsettings.2.2.1
    rw [hengines, State.onEngine_self]
    exact hbroken
  have hsame := v.postOutcome_same m .segmentFault
  generalize v.postOutcome m .segmentFault = t at *
  rw [hsame]
  exact {
    elsewhere := helse, arbiter := harbiter, waits := hwaits, turned := hturned, others := hothers, engines := hengines
    posted := fun q => by rw [← show v.notices = s.notices from hnotices]; exact hposted q
    settings := hsettings, leases := hleases, frames := hframes }

/-! ### A success (R65, R106) -/

theorem Engine.order_brokenPort (e : Engine) (p : Port) (x : Option (Addr × Dir)) (sh : Bool) :
    (e.order p x sh).brokenPort = e.brokenPort := by
  unfold Engine.order
  dsimp only
  split
  · rfl
  · split <;> rfl

theorem State.handOver_brokenPort (s : State) (m : Seg) : (s.handOver m).engines[m].brokenPort = s.engines[m].brokenPort := by
  rcases State.handOver_engines m s with h | ⟨p, x, sh, h⟩
  · rw [h]
  · rw [h, tabUpd_self, Engine.order_brokenPort]

theorem execRecoverySucceeded_at {s : State} (hstate : s.engines[m].state = .recovering)
    (hstep : s.engines[m].recStep = .look ∨ s.engines[m].recStep = .stop) :
    exec (.recoverySucceeded m) s = .next (s.recoverySucceeds m) :=
  if_pos ⟨hstate, hstep⟩

/-- The resume port takes the segment back. -/
theorem recoverySucceeds_resumes {s : State} {p : Port} {t : Transfer} (hstate : s.segs[m].state = .recovering (some p))
    (hctx : s.ports[p].ctx = .addressing t) :
    (s.recoverySucceeds m).engines = tabUpd s.engines m (fun x =>
        (x.endRecovery [.stop]).order p (some (t.snap.target, t.dir)) s.segs[m].shared) ∧
      (s.recoverySucceeds m).segs = tabUpd s.segs m (fun a => { a with state := .active p }) ∧
      (s.recoverySucceeds m).ports = s.ports ∧ OutcomePosted m .segmentRecovered s s (s.recoverySucceeds m) ∧
      SettingsSame s (s.recoverySucceeds m) ∧ LeasesSame s (s.recoverySucceeds m) ∧ FramesSame s (s.recoverySucceeds m) := by
  have htarget : ((s.onEngine m (Engine.endRecovery [.stop])).setSegState m (.active p)).targetOf p =
      some (t.snap.target, t.dir) := by
    simp only [State.targetOf, State.setSegState_ports, State.onEngine_ports, hctx]
    rfl
  have hshared : ((s.onEngine m (Engine.endRecovery [.stop])).setSegState m (.active p)).segs[m].shared = s.segs[m].shared := by
    rw [State.setSegState_segs, tabUpd_self]
    rfl
  have hresume : (s.onEngine m (Engine.endRecovery [.stop])).resumeOrHandOver m =
      (s.onSeg m (fun a => { a with state := .active p })).onEngine m (fun x =>
        (x.endRecovery [.stop]).order p (some (t.snap.target, t.dir)) s.segs[m].shared) := by
    simp only [State.resumeOrHandOver, State.onEngine_segs, hstate, State.orderPhase, htarget, hshared]
    exact State.onEngine_onEngine (s.onSeg m (fun a => { a with state := .active p })) m _ _
  rw [State.recoverySucceeds, hresume]
  have hposted := State.postOutcome_posted (m := m) (s₀ := s) (s := (s.onSeg m (fun a => { a with state := .active p })).onEngine m
    (fun x => (x.endRecovery [.stop]).order p (some (t.snap.target, t.dir)) s.segs[m].shared)) .segmentRecovered
    (by rw [State.onEngine_self, Engine.order_brokenPort]; rfl) rfl
  rw [State.postOutcome_same]
  exact ⟨rfl, rfl, rfl, hposted, ⟨rfl, rfl, rfl, rfl, rfl, rfl⟩, ⟨rfl, rfl⟩, ⟨rfl, rfl⟩⟩

/-- Without a resume port the segment is handed over. -/
theorem recoverySucceeds_handsOver {s : State} (hstate : ∀ p, s.segs[m].state ≠ .recovering (some p)) :
    OutcomePosted m .segmentRecovered s ((s.onEngine m (Engine.endRecovery [.stop])).handOver m) (s.recoverySucceeds m) ∧
      s.recoverySucceeds m =
        { (s.onEngine m (Engine.endRecovery [.stop])).handOver m with notices := (s.recoverySucceeds m).notices } := by
  have hover : (s.onEngine m (Engine.endRecovery [.stop])).resumeOrHandOver m =
      (s.onEngine m (Engine.endRecovery [.stop])).handOver m := by
    unfold State.resumeOrHandOver
    split
    next p hp => exact absurd hp (hstate p)
    next => rfl
  obtain ⟨-, -, hrights, -⟩ := settings_eq_iff.1 ((s.onEngine m (Engine.endRecovery [.stop])).handOver_settings m)
  rw [State.recoverySucceeds, hover]
  refine ⟨State.postOutcome_posted _ ?_ hrights, State.postOutcome_same _ _ _⟩
  rw [State.handOver_brokenPort, State.onEngine_self]
  rfl

/-! ### Lines and pulses (R105) -/

section
variable {s : State}

/-- Where a recovery needs its lines high. -/
theorem Engine.watches_recovering {e : Engine} (hstate : e.state = .recovering) :
    e.watches .clock = true ∧ (e.watches .data = true ↔ e.recStep = .stop ∧ e.hold.clock = .stopped) := by
  have hstopped : e.hold.clock.isRunning = false ↔ e.hold.clock = .stopped := by
    rw [Bool.eq_false_iff, ne_eq, Timer.isRunning_iff, not_not]
  simp [Engine.watches, hstate, hstopped]

theorem Engine.testsData_iff {e : Engine} (hstate : e.state = .recovering) :
    e.testsData = true ↔ e.recStep = .look ∧ e.hold.clock = .stopped := by
  have hstopped : e.hold.clock.isRunning = false ↔ e.hold.clock = .stopped := by
    rw [Bool.eq_false_iff, ne_eq, Timer.isRunning_iff, not_not]
  simp [Engine.testsData, hstate, hstopped]

/-- A clock found low after a pulse counts the pulse (R105 step 3). -/
theorem Engine.timeLine_pulse {e : Engine} (hstate : e.state = .recovering) (hstep : e.recStep = .pulse)
    (hstopped : e.hold.clock = .stopped) (limit : Nat) : e.timeLine limit .clock = { e with
      hold := { e.hold with clock := Timer.start limit }, recStep := .pulsing, pulses := e.pulses + 1, bus := [.pulse] } := by
  simp only [Engine.timeLine, HoldTimer.line, hstopped, hstate, hstep]
  rfl

/-- The data line found low or high at the look's test (R105 step 2). -/
theorem exec_dataTest (htest : s.engines[m].testsData = true) (hwatch : s.engines[m].watches .data = false) :
    exec (.lineHeld m .data) s = .next (s.onEngine m (fun x => { x with recStep := .pulse })) ∧
      exec (.lineReleased m .data) s = .next (s.onEngine m (fun x => { x with recStep := .stop })) := by
  simp only [exec, execLineHeld, execLineReleased, htest, hwatch]
  exact ⟨rfl, rfl⟩

theorem execRecoveryPulse_at {s : State} (hpulse : s.engines[m].atPulse = true) (high : Bool) :
    exec (.recoveryPulse m high) s = if !high && decide (9 ≤ s.engines[m].pulseCount) then
        .next ((s.onEngine m (Engine.pulsed high)).recoveryFails m [.pulse])
      else .next (s.onEngine m (Engine.pulsed high)) := by
  simp only [exec, execRecoveryPulse, hpulse]
  rfl

theorem Engine.atPulse_iff {e : Engine} (hstate : e.state = .recovering) :
    e.atPulse = true ↔ e.recStep = .pulsing ∨ e.recStep ≠ .stop ∧ e.pulses < 9 := by
  simp only [Engine.atPulse, hstate, decide_true, Bool.true_and, Bool.or_eq_true, Bool.and_eq_true, decide_eq_true_eq, ne_eq]
  exact Iff.rfl

theorem execHoldTimerExpiry_recovering (hstate : s.engines[m].state = .recovering) (hclosing : s.engines[m].isClosing = false)
    (hrunning : s.engines[m].hold ≠ .stopped) : exec (.holdTimerExpiry m) s = .next (s.recoveryFails m []) := by
  have htimed := (HoldTimer.isRunning_iff _).2 hrunning
  simp only [exec, execHoldTimerExpiry, htimed, hclosing, hstate]
  rfl

end

/-- Settles O58: the lines and the pulses by the step of R105, the end by who is left to resume or to be turned away. -/
theorem recoveryRunsToItsEnd : Obligations.RecoveryRunsToItsEnd := by
  unfold Obligations.RecoveryRunsToItsEnd
  intro m s hstate e quiet posted failed started count
  obtain ⟨hclock, hdata⟩ := Engine.watches_recovering hstate
  have htests := Engine.testsData_iff hstate
  have hfailed : ∀ {f g : Engine → Engine} {t : State}, f s.engines[m] = g s.engines[m] → RecoveryFailed m g s t →
      failed f (.next t) := fun {f g t} hfg h =>
    ⟨t, rfl, h.engines.trans (tabUpd_congr hfg.symm), h.elsewhere, by rw [h.arbiter]; rfl, by rw [h.arbiter]; rfl,
      by rw [h.arbiter]; rfl, by rw [h.arbiter]; rfl, by rw [h.arbiter]; rfl, by rw [h.arbiter]; rfl, by rw [h.arbiter]; rfl,
      by rw [h.arbiter]; rfl, by rw [h.arbiter]; rfl, fun q x hq => by
        have hplace : q ∈ s.segs[m].stranded ∧ s.ports[q].ctx.transfer? = some x := by
          rcases hq with ⟨hq, hctx⟩ | ⟨hq, hctx⟩
          · exact ⟨Arbiter.mem_stranded.2 (.inl hq), by rw [hctx]; rfl⟩
          · exact ⟨Arbiter.mem_stranded.2 (.inr hq), by rw [hctx]; rfl⟩
        exact ⟨h.turned q x hplace.1 hplace.2, h.waits q hplace.1⟩,
      fun q hq hq' => h.others q fun hmem => (Arbiter.mem_stranded.1 hmem).elim hq hq', h.posted, h.settings, h.leases, h.frames⟩
  refine ⟨fun hstopped => ⟨fun hstep => ?_, fun hstep => ?_, fun hstep => ?_, fun hstep hfree => ?_⟩,
    fun hrunning => ⟨?_, ?_⟩, fun hbusy => ?_, rfl, fun hbusy => ?_, fun high hpulse => ⟨fun hgoes => ?_, fun _ _ hlow hnine => ?_⟩,
    fun _ _ hclosing hrunning => ?_, fun hstep => ⟨fun p t hresume hctx => ?_, fun hnobody => ?_⟩⟩
  · exact execLineHeld_starts hclock hstopped (fun h => hstep h.2)
  · rw [execLineHeld_watched hclock]
    exact congrArg Host.Outcome.next (State.onEngine_congr (Engine.timeLine_pulse hstate hstep hstopped _))
  · refine exec_dataTest (htests.2 ⟨hstep, hstopped⟩) (Bool.eq_false_iff.2 fun hwatch => ?_)
    have hstop := (hdata.1 hwatch).1
    rw [show s.engines[m].recStep = .look from hstep] at hstop
    cases hstop
  · refine execLineHeld_starts (hdata.2 ⟨hstep, hstopped⟩) hfree (fun h => ?_)
    have hstop := h.2
    rw [show s.engines[m].recStep = .stop from hstep] at hstop
    cases hstop
  · exact execLineHeld_idle (.inr hrunning) (fun h => by cases h)
  · exact execLineHeld_idle (.inl (Bool.eq_false_iff.2 fun h => hrunning (hdata.1 h).2))
      (fun _ => Bool.eq_false_iff.2 fun h => hrunning (htests.1 h).2)
  · refine execLineHeld_idle ?_ (fun _ => Bool.eq_false_iff.2 fun h => ?_)
    · rcases hbusy with hstep | hstep | ⟨htimed, -⟩
      · exact .inl (Bool.eq_false_iff.2 fun h => absurd (hstep.symm.trans (hdata.1 h).1) (by decide))
      · exact .inl (Bool.eq_false_iff.2 fun h => absurd (hstep.symm.trans (hdata.1 h).1) (by decide))
      · exact .inr htimed
    · rcases hbusy with hstep | hstep | ⟨-, hstep⟩ <;> exact absurd (hstep.symm.trans (htests.1 h).1) (by decide)
  · exact execLineReleased_data (Bool.eq_false_iff.2 fun h =>
      hbusy.elim (absurd (htests.1 h).1) (absurd (htests.1 h).2))
  · have hcontinues : (!high && decide (9 ≤ s.engines[m].pulseCount)) = false := by
      rcases hgoes with rfl | hfew
      · rfl
      · rw [show s.engines[m].pulseCount = count from rfl, decide_eq_false (Nat.not_le.2 hfew), Bool.and_false]
    rw [execRecoveryPulse_at ((Engine.atPulse_iff hstate).2 hpulse), hcontinues]
    exact congrArg Host.Outcome.next (State.onEngine_congr rfl)
  · have hends : (!high && decide (9 ≤ s.engines[m].pulseCount)) = true := by
      rw [show s.engines[m].pulseCount = count from rfl, hlow, decide_eq_true hnine]
      rfl
    rw [execRecoveryPulse_at ((Engine.atPulse_iff hstate).2 hpulse), hends]
    refine hfailed ?_ (recoveryFails_failed (f := Engine.pulsed high) rfl [.pulse])
    rw [hlow]
    rfl
  · rw [execHoldTimerExpiry_recovering hstate hclosing hrunning]
    have hends := recoveryFails_failed (m := m) (s := s) (f := id) rfl []
    rw [State.onEngine_eq_self rfl] at hends
    exact hfailed rfl hends
  · obtain ⟨hengines, hsegs, hports, hposted, hsettings, hleases, hframes⟩ := recoverySucceeds_resumes hresume hctx
    exact ⟨_, execRecoverySucceeded_at hstate hstep, hengines, hsegs, hports, hposted, hsettings, hleases, hframes⟩
  · exact ⟨_, execRecoverySucceeded_at hstate hstep, recoverySucceeds_handsOver hnobody⟩

end

end Sys2Proof.Machine
end

section
/-! SUPPORT. O59 settled: foreign masters and arbitration losses (R96 to R102). -/

namespace Sys2Proof.Machine

section
variable {s : State} {m : Seg}

/-! ### Foreign conditions that are no contest (R96, R97) -/

theorem Engine.contends_iff {e : Engine} :
    e.contends = true ↔ e.sharedMode = true ∧ e.busOwned = true ∧ e.state ≠ .recovering := by
  simp [Engine.contends, and_assoc]

theorem Engine.contends_false {e : Engine} (h : e.state = .recovering ∨ e.busOwned = false ∨ e.sharedMode = false) :
    e.contends = false := by
  rcases h with h | h | h <;> simp [Engine.contends, h]

/-- A foreign start that is no contest is seen only with the bus not owned on a shared segment. -/
theorem execForeignStart_unseen (hcontends : s.engines[m].contends = false)
    (h : s.engines[m].state = .recovering ∨ s.engines[m].busOwned = true ∨ s.segs[m].shared = false) :
    exec (.foreignStart m) s = .next s := by
  simp only [exec, execForeignStart, hcontends]
  rcases h with h | h | h <;> simp only [h, decide_true, Bool.true_or, Bool.or_true, Bool.not_false] <;> rfl

theorem execForeignStart_seen (hstate : s.engines[m].state ≠ .recovering) (howned : s.engines[m].busOwned = false)
    (hshared : s.segs[m].shared = true) :
    exec (.foreignStart m) s = .next (s.onEngine m (fun x => { x with foreignBusy := true })) := by
  simp only [exec, execForeignStart, Engine.contends_false (.inr (.inl howned)), hstate, howned, hshared]
  rfl

theorem execForeignStop_recovering (hstate : s.engines[m].state = .recovering) (high : Bool) :
    exec (.foreignStop m high) s = .next s := by
  simp only [exec, execForeignStop, Engine.contends_false (.inl hstate), hstate]
  rfl

/-- Within a message of the part that shares nothing, a foreign stop clears the flag of a segment made dedicated. -/
theorem execForeignStop_owned (hstate : s.engines[m].state ≠ .recovering) (howned : s.engines[m].busOwned = true)
    (hmode : s.engines[m].sharedMode = false) (high : Bool) : exec (.foreignStop m high) s =
      if s.segs[m].shared then .next s else .next (s.onEngine m Engine.clearForeign) := by
  simp only [exec, execForeignStop, Engine.contends_false (.inr (.inr hmode)), if_neg hstate, howned]
  rfl

theorem execForeignStop_quiet (howned : s.engines[m].busOwned = false) (hbusy : s.engines[m].foreignBusy = false) (high : Bool) :
    exec (.foreignStop m high) s = .next s := by
  simp only [exec, execForeignStop, Engine.contends_false (.inr (.inl howned)), howned, hbusy]
  exact ite_self _

/-- A foreign stop with the bus not owned and the flag set: nothing of the part waits for it. -/
theorem execForeignStop_clears (hstate : s.engines[m].state ≠ .recovering) (howned : s.engines[m].busOwned = false)
    (hbusy : s.engines[m].foreignBusy = true) {high : Bool}
    (h : high = false ∨ s.engines[m].state ≠ .starting ∨ s.engines[m].sharedMode = false) :
    exec (.foreignStop m high) s = .next (s.onEngine m Engine.clearForeign) := by
  simp only [exec, execForeignStop, Engine.contends_false (.inr (.inl howned)), if_neg hstate, howned, hbusy,
    Bool.false_eq_true, if_false, if_true]
  refine if_neg ?_
  rw [Bool.and_eq_true, Bool.and_eq_true, decide_eq_true_eq]
  rintro ⟨⟨hhigh, hstart⟩, hmode⟩
  rcases h with h | h | h
  · rw [hhigh] at h; cases h
  · exact h hstart
  · rw [hmode] at h; cases h

/-- A foreign stop that a start has waited for. -/
theorem execForeignStop_starts {a : Addr} {d : Dir} (howned : s.engines[m].busOwned = false)
    (hbusy : s.engines[m].foreignBusy = true) (hstate : s.engines[m].state = .starting) (hmode : s.engines[m].sharedMode = true)
    (htarget : s.engines[m].target = some (a, d)) :
    exec (.foreignStop m true) s = .next ((s.onEngine m Engine.clearForeign).onEngine m (Engine.driveStart a d)) := by
  simp only [exec, execForeignStop, Engine.contends_false (.inr (.inl howned)), hstate, howned, hbusy, hmode, htarget]
  rfl

/-! ### Losses (R98 to R101) -/

/-- A lost bit and a foreign condition within a message of the part in shared mode are the same event. -/
theorem exec_lose {i : Instr} {high : Bool} (hi : i = .arbitrationLoss m ∨ i = .foreignStart m ∨ i = .foreignStop m high)
    (hcontends : s.engines[m].contends = true) : exec i s = s.lose m := by
  rcases hi with rfl | rfl | rfl
  · exact if_pos hcontends
  · exact if_pos hcontends
  · exact if_pos hcontends

section
variable {p : Port} {t : Transfer}

theorem lose_addressing (hclosing : s.engines[m].isClosing = false) (hstate : s.engines[m].state ≠ .stopping)
    (hserved : s.engines[m].served = some p) (hctx : s.ports[p].ctx = .addressing t) :
    s.lose m = .next ((s.afterLoss m).lossInAddress m p t) := by
  have hholder := State.servedAddressing_of hserved hctx
  simp only [State.lose, hclosing, decide_eq_false hstate, hholder]
  rfl

theorem lose_relaying (hclosing : s.engines[m].isClosing = false) (hstate : s.engines[m].state ≠ .stopping)
    (hserved : s.engines[m].served = some p) (hctx : s.ports[p].ctx = .relayWrite t ∨ s.ports[p].ctx = .relayRead t) :
    s.lose m = .next ((s.afterLoss m).lossInData m p t) := by
  have hnone : s.servedAddressing m = none := by
    rcases hctx with hctx | hctx <;> simp only [State.servedAddressing, hserved, hctx]
  have hholder := State.servedRelay_of hserved hctx
  simp only [State.lose, hclosing, decide_eq_false hstate, hnone, hholder]
  rfl

theorem lose_ending (h : s.engines[m].isClosing = true ∨ s.engines[m].state = .stopping) :
    s.lose m = .next ((s.afterLoss m).lossUnserved m) := by
  have hends : (s.engines[m].isClosing || decide (s.engines[m].state = .stopping)) = true := by
    simpa using h
  simp only [State.lose, hends]
  rfl

/-- The engine after a loss that its port does not survive. -/
def Engine.gone (e : Engine) : Engine := { e with state := .quiet, served := none, target := none, discarding := false }

/-- The segment of a loss that its port does not survive: the wait timer stopped, the segment handed over. -/
theorem releaseBy_afterLoss {u : State} (hengines : u.engines = (s.afterLoss m).engines) (p : Port) :
    u.releaseBy m p Engine.toQuiet =
      (((u.onEngine m Engine.gone).onSeg m (fun b => { b with waits := b.waits.set p .stopped })).handOver m).onEngine m
        Engine.settle := by
  have hgone : u.onEngine m Engine.toQuiet = u.onEngine m Engine.gone := State.onEngine_congr (by rw [hengines, State.afterLoss_engines]; rfl)
  rw [State.releaseBy, hgone]
  rfl

theorem lossInAddress_again (hretry : s.engines[m].retry < 3) :
    (s.afterLoss m).lossInAddress m p t = (s.afterLoss m).onEngine m (Engine.enterStarting s.segs[m].shared) := by
  have htries : (s.afterLoss m).engines[m].retry < Config.attemptLimit := by
    rw [State.afterLoss_engines]
    exact hretry
  rw [State.lossInAddress, if_pos htries, State.afterLoss_segs]

theorem lossInAddress_last (hretry : 3 ≤ s.engines[m].retry) : (s.afterLoss m).lossInAddress m p t =
    ((s.afterLoss m).onPort p (HostPort.turnedAway .arbitrationLost t)).releaseBy m p Engine.toQuiet := by
  have htries : ¬ (s.afterLoss m).engines[m].retry < Config.attemptLimit := by
    rw [State.afterLoss_engines]
    exact Nat.not_lt.2 hretry
  rw [State.lossInAddress, if_neg htries, State.refuse_eq]

theorem lossUnserved_none (hserved : s.engines[m].served = none) :
    (s.afterLoss m).lossUnserved m = (s.afterLoss m).onEngine m Engine.gone := by
  have hnone : (s.afterLoss m).engines[m].served = none := by
    rw [State.afterLoss_engines]
    exact hserved
  simp only [State.lossUnserved, hnone]
  exact State.onEngine_congr (by rw [State.afterLoss_engines]; rfl)

theorem lossUnserved_some (hserved : s.engines[m].served = some p) (hctx : s.ports[p].ctx = .addressing t) :
    (s.afterLoss m).lossUnserved m = (s.afterLoss m).onEngine m (fun x =>
      { x.enterStarting s.segs[m].shared with discarding := false, target := some (t.snap.target, t.dir) }) := by
  have hsome : (s.afterLoss m).engines[m].served = some p := by
    rw [State.afterLoss_engines]
    exact hserved
  have htarget : (s.afterLoss m).targetOf p = some (t.snap.target, t.dir) := by
    simp only [State.targetOf, show (s.afterLoss m).ports = s.ports from rfl, hctx]
    rfl
  simp only [State.lossUnserved, hsome, htarget, State.afterLoss_segs]
  rfl

end

end

/-- Settles O59: foreign conditions by whether they are a contest, losses by what the engine was doing. -/
theorem foreignMastersAndLosses : Obligations.ForeignMastersAndLosses := by
  unfold Obligations.ForeignMastersAndLosses
  intro m s e a lost gone freed start
  refine ⟨fun hstate => ⟨execForeignStart_unseen (Engine.contends_false (.inl hstate)) (.inl hstate),
      execForeignStop_recovering hstate⟩, fun hstate howned hmode => ⟨?_, fun hshared high => ?_, fun hshared high => ?_⟩,
    fun hstate howned hshared => execForeignStart_seen hstate howned hshared,
    fun howned hshared => execForeignStart_unseen (Engine.contends_false (.inr (.inl howned))) (.inr (.inr hshared)),
    fun hstate howned hbusy => ⟨fun high h => execForeignStop_clears hstate howned hbusy h,
      fun ad d hstart hmode htarget => ?_⟩,
    fun howned hbusy => execForeignStop_quiet howned hbusy, fun i high hi hmode howned hstate => ?_⟩
  · exact execForeignStart_unseen (Engine.contends_false (.inr (.inr hmode))) (.inr (.inl howned))
  · rw [execForeignStop_owned hstate howned hmode]
    exact if_pos hshared
  · rw [execForeignStop_owned hstate howned hmode, if_neg (by rw [show s.segs[m].shared = false from hshared]; decide)]
    rfl
  · rw [execForeignStop_starts howned hbusy hstart hmode htarget, State.onEngine_onEngine]
    refine congrArg Host.Outcome.next (State.onEngine_congr ?_)
    simp only [Engine.driveStart, Engine.clearForeign, show s.engines[m].sharedMode = true from hmode,
      show s.engines[m].busOwned = false from howned]
    rfl
  · have hrun : exec i s = s.lose m := exec_lose hi (Engine.contends_iff.2 ⟨hmode, howned, hstate⟩)
    rw [hrun]
    refine ⟨fun p t hclosing hstop hserved hctx => ?_, fun p t hclosing hstop hserved hctx => ?_, fun hends =>
      ⟨fun hserved => ?_, fun p t hserved hctx => ?_⟩⟩
    · rw [lose_addressing hclosing hstop hserved hctx]
      refine ⟨fun hretry => by rw [lossInAddress_again hretry]; rfl, fun hretry => ?_⟩
      rw [lossInAddress_last hretry,
        releaseBy_afterLoss (u := (s.afterLoss m).onPort p (HostPort.turnedAway .arbitrationLost t)) rfl]
      rfl
    · rw [lose_relaying hclosing hstop hserved hctx, State.lossInData, State.breakPort_eq,
        releaseBy_afterLoss (u := (s.afterLoss m).afterBreak m p t .arbitrationLost) rfl]
      rfl
    · rw [lose_ending hends, lossUnserved_none hserved]
      rfl
    · rw [lose_ending hends, lossUnserved_some hserved hctx]
      rfl

end Sys2Proof.Machine
end

section
/-! SUPPORT. O20 settled: the records of an entry whose access fields change (R33, R127, R128). -/

namespace Sys2Proof.Machine

/-! ### The places of requests, counted -/

theorem countP_finRange_eq_card {n : Nat} (f : Fin n → Bool) :
    (List.finRange n).countP f = (Finset.univ.filter fun j => f j = true).card := by
  rw [List.countP_eq_length_filter, ← List.toFinset_card_of_nodup ((List.nodup_finRange n).filter _)]
  congr 1
  ext j
  simp

/-- The slot holds a request on `e` in one of the places 1 to `k`. -/
def placedUpTo (v : Vector (Option Lease) 16) (e : EntryIx) (k : Nat) (j : Slot) : Bool :=
  match v[j] with
  | some y => y.entry = e && !y.isHeld && y.order ≤ k
  | none => false

theorem placedUpTo_iff {v : Vector (Option Lease) 16} {e : EntryIx} {k : Nat} {j : Slot} :
    placedUpTo v e k j = true ↔ ∃ y, v[j] = some y ∧ y.entry = e ∧ y.isHeld = false ∧ y.order ≤ k := by
  unfold placedUpTo
  cases v[j] with
  | none => simp
  | some y => simp [and_assoc]

/-- The requests of an entry up to the place of one of them are as many as that place says. -/
theorem Requests.count {v : Vector (Option Lease) 16} {e : EntryIx} {n : Nat} (h : Requests v e n) {i : Slot} {l : Lease}
    (hl : v[i] = some l) (he : l.entry = e) (hp : l.isHeld = false) :
    allSlots.countP (placedUpTo v e l.order) = l.order := by
  rw [allSlots, countP_finRange_eq_card]
  generalize hk : l.order = k
  induction k generalizing i l with
  | zero =>
    have := (h.place i l hl he hp).1
    omega
  | succ k ih =>
    have hbelow : (Finset.univ.filter fun j => placedUpTo v e k j = true).card = k := by
      by_cases hfirst : l.order = 1
      · obtain rfl : k = 0 := by omega
        rw [Finset.card_eq_zero, Finset.filter_eq_empty_iff]
        intro j _ hj
        obtain ⟨y, hy, hye, hyp, hyo⟩ := placedUpTo_iff.1 hj
        have := (h.place j y hy hye hyp).1
        omega
      · obtain ⟨j, y, hy, hye, hyp, hyo⟩ := h.gapless i l hl he hp hfirst
        exact ih hy hye hyp (by omega)
    have hinsert : (Finset.univ.filter fun j => placedUpTo v e (k + 1) j = true) =
        insert i (Finset.univ.filter fun j => placedUpTo v e k j = true) := by
      ext j
      simp only [Finset.mem_filter, Finset.mem_univ, true_and, Finset.mem_insert, placedUpTo_iff]
      constructor
      · rintro ⟨y, hy, hye, hyp, hyo⟩
        by_cases ho : y.order ≤ k
        · exact .inr ⟨y, hy, hye, hyp, ho⟩
        · exact .inl (h.unique j i y l hy hl hye he hyp hp (.inr (by omega)))
      · rintro (rfl | ⟨y, hy, hye, hyp, hyo⟩)
        · exact ⟨l, hl, he, hp, hk.le⟩
        · exact ⟨y, hy, hye, hyp, by omega⟩
    have hnew : i ∉ Finset.univ.filter fun j => placedUpTo v e k j = true := by
      simp only [Finset.mem_filter, Finset.mem_univ, true_and, placedUpTo_iff]
      rintro ⟨y, hy, -, -, hyo⟩
      rw [hl] at hy
      cases hy
      omega
    rw [hinsert, Finset.card_insert_of_notMem hnew, hbelow]

theorem Requests.pendingAt_eq {s : State} {e : EntryIx} {n : Nat} (h : Requests s.leases e n) {i : Slot} {l : Lease}
    (hl : s.leases[i] = some l) (he : l.entry = e) (hp : l.isHeld = false) : s.pendingAt e l.order = some (i, l) := by
  cases hx : s.pendingAt e l.order with
  | none => exact absurd rfl (State.pendingAt_none.1 hx i l hl he hp)
  | some x =>
    obtain ⟨j, y⟩ := x
    obtain ⟨hy, hye, hyp, hyo⟩ := State.pendingAt_some hx
    obtain rfl := h.unique j i y l hy hl hye he hyp hp (.inr hyo)
    rw [hl] at hy
    cases hy
    rfl

/-! ### What a promotion writes beside the table -/

theorem State.promote_notices {s : State} {e : EntryIx} {i : Slot} {x : Lease} (h : s.pendingAt e 1 = some (i, x)) :
    (s.promote e).notices =
      tabUpd s.notices x.port (NoticeQueue.store .leaseGranted (some e) (s.segOf e) s.tokenToIssue) := by
  rw [State.promote_some h, State.post_notices]
  rfl

theorem State.promote_tokenCounter {s : State} {e : EntryIx} {i : Slot} {x : Lease} (h : s.pendingAt e 1 = some (i, x)) :
    (s.promote e).tokenCounter = bumpToken s.tokenToIssue := by
  rw [State.promote_some h]
  rfl

/-- The token of a promotion is that of no HELD record. -/
theorem State.promote_token_fresh {s : State} {e : EntryIx} {i : Slot} {x : Lease} (h : s.pendingAt e 1 = some (i, x))
    {j : Slot} {k : Lease} (hk : s.leases[j] = some k) (hheld : k.isHeld = true) : k.token ≠ s.tokenToIssue := by
  obtain ⟨hx, -, hp, -⟩ := State.pendingAt_some h
  refine fun htok => State.tokenToIssue_fresh (i := i) (fun l hl => ?_) (State.mem_heldTokens.2 ⟨j, k, hk, hheld, htok⟩)
  rw [hx] at hl
  cases hl
  exact hp

theorem State.promote_notices_other {s : State} {e : EntryIx} {q : Port}
    (h : ∀ (i : Slot) (l : Lease), s.leases[i] = some l → l.entry = e → l.isHeld = false → l.port ≠ q) :
    (s.promote e).notices[q] = s.notices[q] := by
  cases hx : s.pendingAt e 1 with
  | none => rw [State.promote_none hx]
  | some x =>
    obtain ⟨i, x⟩ := x
    obtain ⟨hl, he, hp, -⟩ := State.pendingAt_some hx
    rw [State.promote_notices hx, tabUpd_other _ _ _ _ (h i x hl he hp)]

theorem State.promote_free {s : State} {i : Slot} (h : s.leases[i] = none) (e : EntryIx) : (s.promote e).leases[i] = none := by
  cases hl : (s.promote e).leases[i] with
  | none => rfl
  | some l =>
    obtain ⟨k, hk, -⟩ := (OnlyEntry.promote s e).stems i l hl
    rw [h] at hk
    cases hk

/-- A promotion serves the request in front, and the one in place `n + 1` moves to place `n`. -/
theorem Requests.promote_behind {s : State} {e : EntryIx} {k : Nat} (h : Requests s.leases e k) {i : Slot} {l : Lease} {n : Nat}
    (hl : s.leases[i] = some { l with status := .pending (n + 1) }) (he : l.entry = e) (hn : n ≠ 0) :
    (s.promote e).leases[i] = some { l with status := .pending n } ∧ (s.promote e).notices[l.port] = s.notices[l.port] := by
  have hfirst : ∃ (j : Slot) (x : Lease), s.pendingAt e 1 = some (j, x) := by
    by_contra hnone
    have hnone : s.pendingAt e 1 = none := Option.eq_none_iff_forall_ne_some.2 fun x hx => hnone ⟨x.1, x.2, hx⟩
    exact Bool.noConfusion (h.none_of_no_first (State.pendingAt_none.1 hnone) i _ hl he)
  obtain ⟨j, x, hx⟩ := hfirst
  obtain ⟨hj, hxe, hxp, hxo⟩ := State.pendingAt_some hx
  have hji : j ≠ i := by
    rintro rfl
    rw [hl] at hj
    cases hj
    have : n + 1 = 1 := hxo
    omega
  constructor
  · refine (State.promote_leases_some hx).2 (.inr ⟨hji, _, hl, ?_⟩)
    unfold Lease.moveUp
    simp only [he]
    rw [if_pos ⟨trivial, by omega⟩]
    rfl
  · rw [State.promote_notices hx, tabUpd_other]
    exact fun hport => hji (h.unique j i x _ hj hl hxe he hxp rfl (.inl hport))

/-- The request in front is served, and its port told. -/
theorem Requests.promote_first {s : State} {e : EntryIx} {k : Nat} (h : Requests s.leases e k) {i : Slot} {l : Lease}
    (hl : s.leases[i] = some { l with status := .pending 1 }) (he : l.entry = e) :
    (s.promote e).leases[i] =
        some { l with status := .held s.tokenToIssue (s.clip e l.requested * Config.ticksPerMs) } ∧
      (s.promote e).notices[l.port] = (s.notices[l.port]).store .leaseGranted (some e) (s.segOf e) s.tokenToIssue ∧
      (s.promote e).tokenCounter = bumpToken s.tokenToIssue ∧
      ∀ (j : Slot) (k : Lease), s.leases[j] = some k → k.isHeld = true → k.token ≠ s.tokenToIssue := by
  have hx : s.pendingAt e 1 = some (i, { l with status := .pending 1 }) := h.pendingAt_eq hl he rfl
  refine ⟨(State.promote_leases_some hx).2 (.inl ⟨rfl, rfl⟩), ?_, State.promote_tokenCounter hx,
    fun j k hk hh => State.promote_token_fresh hx hk hh⟩
  rw [State.promote_notices hx, tabUpd_self]

/-! ### Requests of ports that keep sight of an entry -/

/-- The slot holds a request on `e`, of a port in `vis`, in one of the places up to `k`. -/
def State.seenAt (s : State) (e : EntryIx) (vis : PortMask) (k : Nat) (j : Slot) : Bool :=
  match s.leases[j] with
  | some y => y.entry = e && !y.isHeld && hasPort vis y.port && y.order ≤ k
  | none => false

theorem State.seenAt_iff {s : State} {e : EntryIx} {vis : PortMask} {k : Nat} {j : Slot} : s.seenAt e vis k j = true ↔
    ∃ y, s.leases[j] = some y ∧ y.entry = e ∧ y.isHeld = false ∧ hasPort vis y.port = true ∧ y.order ≤ k := by
  unfold State.seenAt
  cases s.leases[j] with
  | none => simp
  | some y => simp [and_assoc]

/-- The number of requests on `e` of ports in `vis` in the places up to `k` (R127). -/
def State.seenUpTo (s : State) (e : EntryIx) (vis : PortMask) (k : Nat) : Nat := allSlots.countP (s.seenAt e vis k)

section
variable {e : EntryIx} {vis : PortMask} {m : Option Seg} {s t : State} (h : Pruned e vis m s t)
include h

theorem Pruned.gone {i : Slot} {l : Lease} (hl : s.leases[i] = some l) (he : l.entry = e) (hp : l.isHeld = false)
    (hvis : hasPort vis l.port = false) : t.leases[i] = none := by
  cases hl' : t.leases[i] with
  | none => rfl
  | some l' =>
    obtain ⟨hport, hle, hlp⟩ : l'.port = l.port ∧ l'.entry = e ∧ l'.isHeld = false := by
      by_cases hstay : l'.entry ≠ e ∨ l'.isHeld = true
      · have := (h.withdrawn.others i l' hstay).1 hl'
        rw [hl] at this
        cases this
        exact ⟨rfl, he, hp⟩
      · obtain ⟨k, hk, -, -, hlk⟩ := h.withdrawn.stem i l' hl' (by tauto) (by simpa using fun hh => hstay (.inr hh))
        rw [hl] at hk
        cases hk
        rw [hlk]
        exact ⟨rfl, he, rfl⟩
    have := h.seen i l' hl' hle hlp
    simp [hport, hvis] at this

/-- A request that is left is the old one, in its place among those left. -/
theorem Pruned.stem {i : Slot} {l' : Lease} (hl' : t.leases[i] = some l') (he : l'.entry = e) (hp : l'.isHeld = false) :
    ∃ l, s.leases[i] = some l ∧ l.entry = e ∧ l.isHeld = false ∧ hasPort vis l.port = true ∧
      l' = { l with status := .pending l'.order } := by
  obtain ⟨l, hl, hle, hlp, hll⟩ := h.withdrawn.stem i l' hl' he hp
  have hseen := h.seen i l' hl' he hp
  rw [hll] at hseen
  exact ⟨l, hl, hle, hlp, hseen, hll⟩

/-- A request that is seen is left, in its place among those left. -/
theorem Pruned.left {i : Slot} {l : Lease} (hl : s.leases[i] = some l) (he : l.entry = e) (hp : l.isHeld = false)
    (hvis : hasPort vis l.port = true) :
    ∃ n, t.leases[i] = some { l with status := .pending n } ∧ n = s.seenUpTo e vis l.order := by
  have hleft {j : Slot} {y : Lease} (hy : s.leases[j] = some y) (hye : y.entry = e) (hyp : y.isHeld = false)
      (hyvis : hasPort vis y.port = true) : ∃ n, t.leases[j] = some { y with status := .pending n } := by
    obtain ⟨y', hy'⟩ := h.kept j y hy hye hyp hyvis
    by_cases hstay : y'.entry ≠ e ∨ y'.isHeld = true
    · have := (h.withdrawn.others j y' hstay).1 hy'
      rw [hy] at this
      cases this
      simp [hye, hyp] at hstay
    · obtain ⟨k, hk, -, -, hyk⟩ := h.withdrawn.stem j y' hy' (by tauto) (by simpa using fun hh => hstay (.inr hh))
      rw [hy] at hk
      cases hk
      exact ⟨y'.order, by rw [← hyk]; exact hy'⟩
  obtain ⟨n, hn⟩ := hleft hl he hp hvis
  refine ⟨n, hn, ?_⟩
  have hcount : allSlots.countP (placedUpTo t.leases e n) = n := h.requests.count hn he rfl
  refine hcount.symm.trans (List.countP_congr fun j _ => ?_)
  rw [placedUpTo_iff, State.seenAt_iff]
  constructor
  · rintro ⟨y', hy', hye', hyp', hyo'⟩
    obtain ⟨y, hy, hye, hyp, hyvis, -⟩ := h.stem hy' hye' hyp'
    exact ⟨y, hy, hye, hyp, hyvis, (h.withdrawn.order j i y l _ _ hy hl hy' hn hye' he hyp' rfl).1 hyo'⟩
  · rintro ⟨y, hy, hye, hyp, hyvis, hyo⟩
    obtain ⟨k, hk⟩ := hleft hy hye hyp hyvis
    exact ⟨_, hk, hye, rfl, (h.withdrawn.order j i y l _ _ hy hl hk hn hye he rfl rfl).2 hyo⟩

/-- The request in front of those left is the oldest of those that are seen. -/
theorem Pruned.first_iff {i : Slot} {l : Lease} {n : Nat} (hl : s.leases[i] = some l) (he : l.entry = e)
    (hn : t.leases[i] = some { l with status := .pending n }) :
    n = 1 ↔ ∀ (j : Slot) (k : Lease), s.leases[j] = some k → k.entry = e → k.isHeld = false → hasPort vis k.port = true →
      l.order ≤ k.order := by
  constructor
  · rintro rfl j k hk hke hkp hkvis
    obtain ⟨o, ho, -⟩ := h.left hk hke hkp hkvis
    exact (h.withdrawn.order i j l k _ _ hl hk hn ho he hke rfl rfl).1 (h.requests.place j _ ho hke rfl).1
  · intro holdest
    by_contra hne
    obtain ⟨j, k', hk', hke', hkp', hko'⟩ := h.requests.gapless i _ hn he rfl hne
    obtain ⟨k, hk, hke, hkp, hkvis, -⟩ := h.stem hk' hke' hkp'
    have hle : n ≤ k'.order :=
      (h.withdrawn.order i j l k _ _ hl hk hn hk' he hke' rfl hkp').2 (holdest j k hk hke hkp hkvis)
    have : k'.order + 1 = n := hko'
    omega
end


/-! ### The records of an entry under a new visibility mask (R127) -/

/-- The holder of `e` is a port outside `vis`. -/
def State.HolderUnseen (s : State) (e : EntryIx) (vis : PortMask) : Prop :=
  ∃ (j : Slot) (h : Lease), s.leases[j] = some h ∧ h.entry = e ∧ h.isHeld = true ∧ hasPort vis h.port = false

/-- The request `l` comes after a holder that loses sight of the entry: no request that is seen is older. -/
def State.Succeeds (s : State) (e : EntryIx) (vis : PortMask) (l : Lease) : Prop :=
  s.HolderUnseen e vis ∧ ∀ (j : Slot) (k : Lease), s.leases[j] = some k → k.entry = e → k.isHeld = false →
    hasPort vis k.port = true → l.order ≤ k.order

/-- `u` is `s` with the records on `e` of ports outside `vis` revoked, the requests left in their order without a gap, and the
oldest of them the holder where the holder went. -/
structure SightLost (e : EntryIx) (vis : PortMask) (m : Option Seg) (s u : State) : Prop where
  gone : ∀ (i : Slot) (l : Lease), s.leases[i] = some l → l.entry = e → hasPort vis l.port = false →
    u.leases[i] = none ∧ u.notices[l.port] = (s.notices[l.port]).store (.leaseRevoked .visibilityLost) (some e) m l.token
  held : ∀ (i : Slot) (l : Lease), s.leases[i] = some l → l.entry = e → l.isHeld = true → hasPort vis l.port = true →
    u.leases[i] = some l ∧ u.notices[l.port] = s.notices[l.port]
  served : ∀ (i : Slot) (l : Lease), s.leases[i] = some l → l.entry = e → l.isHeld = false → hasPort vis l.port = true →
    s.Succeeds e vis l → ∃ token : Byte,
      u.leases[i] = some { l with status := .held token (s.clip e l.requested * Config.ticksPerMs) } ∧
      u.tokenCounter = bumpToken token ∧
      (∀ (j : Slot) (k : Lease), s.leases[j] = some k → k.isHeld = true → k.entry ≠ e → k.token ≠ token) ∧
      u.notices[l.port] = (s.notices[l.port]).store .leaseGranted (some e) (s.segOf e) token
  waits : ∀ (i : Slot) (l : Lease), s.leases[i] = some l → l.entry = e → l.isHeld = false → hasPort vis l.port = true →
    ¬ s.Succeeds e vis l → ∃ n, u.leases[i] = some { l with status := .pending n } ∧
      u.notices[l.port] = s.notices[l.port] ∧ (¬ s.HolderUnseen e vis → n = s.seenUpTo e vis l.order) ∧
      (s.HolderUnseen e vis → n + 1 = s.seenUpTo e vis l.order)
  untold : ∀ q : Port, (∀ (i : Slot) (l : Lease), s.leases[i] = some l → l.entry = e → l.port ≠ q) →
    u.notices[q] = s.notices[q]
  counter : ¬ s.HolderUnseen e vis ∨ s.seenUpTo e vis 3 = 0 → u.tokenCounter = s.tokenCounter

theorem besideLeases_tokenCounter {s t : State} (h : t.besideLeases = s.besideLeases) : t.tokenCounter = s.tokenCounter :=
  (congrArg State.tokenCounter h :)

/-- Requests alone withdrawn: the holder, if any, is seen. -/
theorem Pruned.sightLost {e : EntryIx} {vis : PortMask} {m : Option Seg} {s t : State} (h : Pruned e vis m s t)
    (hs : EntryRecords s.leases e) (hkeeps : ¬ s.HolderUnseen e vis) : SightLost e vis m s t where
  gone i l hl he hvis := by
    have hp : l.isHeld = false := by
      by_contra hh
      exact hkeeps ⟨i, l, hl, he, by simpa using hh, hvis⟩
    exact ⟨h.gone hl he hp hvis, h.told i l hl he hp hvis⟩
  held i l hl he hh hvis := by
    refine ⟨(h.withdrawn.others i l (.inr hh)).2 hl, h.untold _ fun j k hk hke hkp hport => ?_⟩
    exact absurd hport.symm (hs.holder.apart i j l k hl hk he hke hh hkp)
  served i l _ _ _ _ hserved := absurd hserved.1 hkeeps
  waits i l hl he hp hvis _ := by
    obtain ⟨n, hn, hcount⟩ := h.left hl he hp hvis
    exact ⟨n, hn, h.untold _ fun _ _ _ _ _ _ => hvis, fun _ => hcount, fun hlost => absurd hlost hkeeps⟩
  untold q hq := h.untold q fun i l hl he _ hport => absurd hport (hq i l hl he)
  counter _ := besideLeases_tokenCounter h.rest

/-- A HELD record revoked leaves the other slots as they were. -/
theorem State.revoke_held_leases {s : State} {i : Slot} {x : Lease} (hx : x.isHeld = true) (c : RevokeCause) (m : Option Seg)
    {j : Slot} {l : Lease} : (s.revoke (i, x) c m).leases[j] = some l ↔ i ≠ j ∧ s.leases[j] = some l := by
  rw [State.revoke_leases, State.freeRecord_leases_some]
  simp [Lease.afterFree_held hx]

/-- The holder revoked, then requests withdrawn, then the oldest request left promoted. -/
theorem Pruned.promote_sightLost {e : EntryIx} {vis : PortMask} {m : Option Seg} {s t : State} {i : Slot} {x : Lease}
    (hs : EntryRecords s.leases e) (hx : s.leases[i] = some x) (hxe : x.entry = e) (hxh : x.isHeld = true)
    (hxvis : hasPort vis x.port = false) (h : Pruned e vis m (s.revoke (i, x) .visibilityLost m) t) :
    SightLost e vis m s (t.promote e) := by
  have hlost : s.HolderUnseen e vis := ⟨i, x, hx, hxe, hxh, hxvis⟩
  set w := s.revoke (i, x) .visibilityLost m with hw
  have hkept {j : Slot} {l : Lease} (hl : s.leases[j] = some l) (hp : l.isHeld = false) : w.leases[j] = some l := by
    refine (State.revoke_held_leases hxh _ _).2 ⟨?_, hl⟩
    rintro rfl
    rw [hx] at hl
    cases hl
    exact Bool.noConfusion (hxh.symm.trans hp)
  have hwas {j : Slot} {l : Lease} (hl : w.leases[j] = some l) : s.leases[j] = some l :=
    ((State.revoke_held_leases hxh _ _).1 hl).2
  have hapart {j : Slot} {l : Lease} (hl : s.leases[j] = some l) (he : l.entry = e) (hp : l.isHeld = false) :
      x.port ≠ l.port := hs.holder.apart i j x l hx hl hxe he hxh hp
  have hholder {j : Slot} {l : Lease} (hl : s.leases[j] = some l) (he : l.entry = e) (hh : l.isHeld = true) : l = x := by
    obtain rfl := hs.holder.single i j x l hx hl hxe he hxh hh
    rw [hx] at hl
    cases hl
    rfl
  have hnotice {q : Port} (hq : x.port ≠ q) : w.notices[q] = s.notices[q] := by
    rw [hw, State.revoke_notices, tabUpd_other _ _ _ _ hq]
  have hcount (k : Nat) : w.seenUpTo e vis k = s.seenUpTo e vis k := by
    refine List.countP_congr fun j _ => ?_
    simp only [State.seenAt_iff]
    exact ⟨fun ⟨y, hy, hrest⟩ => ⟨y, hwas hy, hrest⟩, fun ⟨y, hy, hye, hyp, hrest⟩ => ⟨y, hkept hy hyp, hye, hyp, hrest⟩⟩
  have hrest : t.besideLeases = s.besideLeases := h.rest.trans (s.revoke_besideLeases _ _ m)
  have hdir : t.directory = s.directory := besideTable_directory (besideTable_of_besideLeases hrest)
  have hunseen {q : Port} (hq : ∀ (j : Slot) (l : Lease), s.leases[j] = some l → l.entry = e → l.isHeld = false →
      hasPort vis l.port = true → l.port ≠ q) : (t.promote e).notices[q] = t.notices[q] := by
    refine State.promote_notices_other fun j l' hl' he hp hport => ?_
    obtain ⟨l, hl, hle, hlp, hlvis, hll⟩ := h.stem hl' he hp
    rw [hll] at hport
    exact hq j l (hwas hl) hle hlp hlvis hport
  have holdest {j : Slot} {l : Lease} {n : Nat} (hl : s.leases[j] = some l) (he : l.entry = e) (hp : l.isHeld = false)
      (hn : t.leases[j] = some { l with status := .pending n }) : n = 1 ↔ s.Succeeds e vis l := by
    rw [h.first_iff (hkept hl hp) he hn]
    exact ⟨fun hle => ⟨hlost, fun a k hk hke hkp => hle a k (hkept hk hkp) hke hkp⟩,
      fun hle a k hk => hle.2 a k (hwas hk)⟩
  refine ⟨fun j l hl he hvis => ?_, fun j l hl he hh hvis => ?_, fun j l hl he hp hvis hserved => ?_,
    fun j l hl he hp hvis hnot => ?_, fun q hq => ?_, fun hnone => ?_⟩
  · cases hh : l.isHeld with
    | true =>
      obtain rfl := hholder hl he hh
      have hgone : t.leases[j] = none := by
        cases hl' : t.leases[j] with
        | none => rfl
        | some l' =>
          obtain ⟨k, hk, -⟩ := h.withdrawn.onlyEntry.stems j l' hl'
          obtain rfl := hs.holder.single i j l l hx hl he he hh hh
          exact absurd rfl ((State.revoke_held_leases hxh _ _).1 hk).1
      refine ⟨State.promote_free hgone e, ?_⟩
      rw [hunseen fun a k hk hke hkp _ => (hapart hk hke hkp).symm,
        h.untold l.port fun a k hk hke hkp hport => absurd hport.symm (hapart (hwas hk) hke hkp), hw, State.revoke_notices,
        tabUpd_self, he]
    | false =>
      refine ⟨State.promote_free (h.gone (hkept hl hh) he hh hvis) e, ?_⟩
      rw [hunseen fun a k hk hke hkp hkvis hport => ?_, h.told j l (hkept hl hh) he hh hvis, hnotice (hapart hl he hh)]
      rw [hport, hvis] at hkvis
      cases hkvis
  · obtain rfl := hholder hl he hh
    rw [hxvis] at hvis
    cases hvis
  · obtain ⟨n, hn, -⟩ := h.left (hkept hl hp) he hp hvis
    obtain rfl := (holdest hl he hp hn).2 hserved
    obtain ⟨hlease, hnotices, hcounter, hfresh⟩ := h.requests.promote_first hn he
    refine ⟨t.tokenToIssue, ?_, hcounter, fun a k hk hkh hke => hfresh a k ?_ hkh, ?_⟩
    · rw [hlease]
      simp only [State.clip, State.maxLeaseOr, State.route, hdir]
    · refine (h.withdrawn.others a k (.inl hke)).2 ((State.revoke_held_leases hxh _ _).2 ⟨?_, hk⟩)
      rintro rfl
      rw [hx] at hk
      cases hk
      exact hke hxe
    · rw [hnotices, h.untold l.port (fun _ _ _ _ _ _ => hvis), hnotice (hapart hl he hp)]
      simp only [State.segOf, State.route, hdir]
  · obtain ⟨n, hn, hplace⟩ := h.left (hkept hl hp) he hp hvis
    have hn₁ : n ≠ 1 := fun hone => hnot ((holdest hl he hp hn).1 hone)
    obtain ⟨k, rfl⟩ : ∃ k, n = k + 1 := ⟨n - 1, by have : 1 ≤ n := (h.requests.place j _ hn he rfl).1; omega⟩
    obtain ⟨hlease, hnotices⟩ := h.requests.promote_behind hn he (by omega)
    exact ⟨k, hlease, by rw [hnotices, h.untold l.port (fun _ _ _ _ _ _ => hvis), hnotice (hapart hl he hp)],
      fun hkeeps => absurd hlost hkeeps, fun _ => by rw [hplace, hcount]⟩
  · rw [hunseen fun a k hk hke _ _ => hq a k hk hke, h.untold q fun a k hk hke _ hport => absurd hport (hq a k (hwas hk) hke),
      hnotice (hq i x hx hxe)]
  · have hempty : s.seenUpTo e vis 3 = 0 := hnone.resolve_left fun hkeeps => hkeeps hlost
    have hnofirst : t.pendingAt e 1 = none := by
      refine State.pendingAt_none.2 fun j l' hl' he hp _ => ?_
      obtain ⟨l, hl, hle, hlp, hlvis, -⟩ := h.stem hl' he hp
      have hzero := List.countP_eq_zero.1 hempty j (List.mem_finRange j)
      exact hzero (State.seenAt_iff.2 ⟨l, hwas hl, hle, hlp, hlvis, (hs.requests.place j l (hwas hl) hle hlp).2⟩)
    rw [State.promote_none hnofirst, besideLeases_tokenCounter hrest]


theorem State.loseVisibility_sightLost {s : State} {e : EntryIx} (hs : EntryRecords s.leases e) (vis : PortMask)
    (m : Option Seg) : SightLost e vis m s (s.loseVisibility e vis m) := by
  unfold State.loseVisibility
  have hpruned : Pruned e vis m s (State.cancelUnseen e vis m 3 s) := State.cancelUnseen_pruned e vis m 3 s hs.requests le_rfl
  cases hheld : s.heldOn e with
  | none => exact hpruned.sightLost hs fun ⟨j, l, hl, he, _⟩ => hs.none_of_no_held hheld j l hl he
  | some ix =>
    obtain ⟨i, x⟩ := ix
    obtain ⟨hx, hxe, hxh⟩ := State.heldOn_some hheld
    dsimp only
    split
    · next hvis =>
      refine hpruned.sightLost hs fun ⟨j, l, hl, he, hh, hlvis⟩ => ?_
      obtain rfl := hs.holder.single i j x l hx hl hxe he hxh hh
      rw [hx] at hl
      cases hl
      rw [hvis] at hlvis
      cases hlvis
    · next hvis =>
      have honly : RequestsOnly (s.revoke (i, x) .visibilityLost m).leases e 3 := hs.freeHeld hx hxe hxh
      exact (State.cancelUnseen_pruned e vis m 3 _ honly.requests le_rfl).promote_sightLost hs hx hxe hxh (by simpa using hvis)

theorem Lease.cut_pending {l : Lease} (h : l.isHeld = false) (ms : Nat) : l.cut ms = l := by
  obtain ⟨p, e, g, d, st⟩ := l
  cases st with
  | held t n => cases h
  | pending o => rfl

theorem Lease.cut_entry (l : Lease) (ms : Nat) : (l.cut ms).entry = l.entry := by
  unfold Lease.cut
  split <;> rfl

/-- The cut of R128 reads the HELD record of its entry alone. -/
theorem State.cutHeld_leases_some {s : State} {e : EntryIx} (hs : EntryRecords s.leases e) (ms : Nat) {i : Slot} {k : Lease} :
    (s.cutHeld e ms).leases[i] = some k ↔ ∃ l, s.leases[i] = some l ∧ (if l.entry = e then l.cut ms else l) = k := by
  unfold State.cutHeld
  cases hheld : s.heldOn e with
  | none =>
    constructor
    · exact fun hk => ⟨k, hk, if_neg (hs.none_of_no_held hheld i k hk)⟩
    · rintro ⟨l, hl, rfl⟩
      rwa [if_neg (hs.none_of_no_held hheld i l hl)]
  | some ix =>
    obtain ⟨j, x⟩ := ix
    obtain ⟨hx, hxe, hxh⟩ := State.heldOn_some hheld
    have hstays {l : Lease} (hij : j ≠ i) (hl : s.leases[i] = some l) : (if l.entry = e then l.cut ms else l) = l := by
      split
      · next he =>
        exact Lease.cut_pending (Bool.eq_false_iff.2 fun hh => hij (hs.holder.single j i x l hx hl hxe he hxh hh)) ms
      · rfl
    rw [State.setLease_leases, tabUpd_some]
    constructor
    · rintro (⟨rfl, hk⟩ | ⟨hij, hk⟩)
      · exact ⟨x, hx, by rw [if_pos hxe]; exact Option.some.inj hk⟩
      · exact ⟨k, hk, hstays hij hk⟩
    · rintro ⟨l, hl, rfl⟩
      by_cases hij : j = i
      · subst hij
        rw [hx] at hl
        cases hl
        exact .inl ⟨rfl, by rw [if_pos hxe]⟩
      · exact .inr ⟨hij, by rwa [hstays hij hl]⟩

@[simp] theorem State.cutHeld_tokenCounter (s : State) (e : EntryIx) (ms : Nat) :
    (s.cutHeld e ms).tokenCounter = s.tokenCounter := by
  unfold State.cutHeld
  split <;> rfl

section
variable {s : State} {e : EntryIx} {r : Route} {x : AccessFields}

theorem decodeModr_bytes (e : EntryIx) (hm : masksOk x.vis x.wp = true) (h₁ : 1 ≤ x.maxLease) (h₂ : x.maxLease ≤ 65535) :
    decodeModr (entryByte e) (maskByte x.vis) (maskByte x.wp) (modeByte x.mode) (BitVec.ofNat 16 x.maxLease) = some (e, x) := by
  simp [decodeModr, decodeDuration_ofNat h₁ h₂, hm]

/-- Entry `i` is in visible conflict with a new visibility mask for `e` (R33). -/
def State.SightConflict (s : State) (e : EntryIx) (vis : PortMask) (r : Route) (i : EntryIx) : Prop :=
  i ≠ e ∧ ∃ o, s.directory[i].route = some o ∧ (∃ q, hasPort vis q = true ∧ hasPort o.vis q = true) ∧
    ∃ a, inRange r.vbase r.span a = true ∧ inRange o.vbase o.span a = true

theorem State.sightConflict_iff {i : EntryIx} : s.SightConflict e x.vis r i ↔ (i ≠ e && match s.route i with
    | some o => visibleConflict (r.withAccess x) o
    | none => false) = true := by
  rw [State.SightConflict, Bool.and_eq_true, decide_eq_true_eq]
  refine and_congr_right fun _ => ?_
  cases ho : s.route i with
  | none =>
    rw [State.route] at ho
    simp only [ho, reduceCtorEq, false_and, exists_false, Bool.false_eq_true]
  | some o =>
    rw [State.route] at ho
    simp only [ho, Option.some.injEq, exists_eq_left', visibleConflict_iff]
    rfl

theorem State.modrConflict_some {i : EntryIx} (hi : s.SightConflict e x.vis r i)
    (hlow : ∀ j, j < i → ¬ s.SightConflict e x.vis r j) : s.modrConflict e (r.withAccess x) = some i :=
  finRange_find?_eq_some.2
    ⟨State.sightConflict_iff.1 hi, fun j hj => Bool.eq_false_iff.2 fun h => hlow j hj (State.sightConflict_iff.2 h)⟩

theorem State.modrConflict_clear (h : ∀ i, ¬ s.SightConflict e x.vis r i) : s.modrConflict e (r.withAccess x) = none :=
  List.find?_eq_none.2 fun i _ hi => h i (State.sightConflict_iff.2 hi)

end


theorem besideTable_frame {s t : State} (h : t.besideTable = s.besideTable) : t.ports = s.ports ∧ SegmentsSame s t ∧
    t.defaults = s.defaults ∧ t.rights = s.rights ∧ t.buffers = s.buffers ∧ t.responses = s.responses ∧ t.adr = s.adr ∧
    t.admSel = s.admSel ∧ t.pending = s.pending :=
  ⟨(congrArg State.ports h :), ⟨(congrArg State.segs h :), (congrArg State.engines h :)⟩, (congrArg State.defaults h :),
    (congrArg State.rights h :), (congrArg State.buffers h :), (congrArg State.responses h :), (congrArg State.adr h :),
    (congrArg State.admSel h :), (congrArg State.pending h :)⟩

/-- Settles O20: the requests that are seen keep their order, so that each stands in the place that counts those seen up to it,
one less where the oldest of them has followed a holder that lost sight of the entry. -/
theorem modrChangesAccess : Obligations.ModrChangesAccess := by
  unfold Obligations.ModrChangesAccess
  intro p e x s hidle hright hm h₁ h₂ run conflict place loser
  have hrun : run = .next (s.cmdModr p (entryByte e) (maskByte x.vis) (maskByte x.wp) (modeByte x.mode)
      (BitVec.ofNat 16 x.maxLease)) := exec_row_permitted (c := .modr _ _ _ _ _) ⟨hidle, hright⟩
  simp only [State.cmdModr, decodeModr_bytes e hm h₁ h₂] at hrun
  rw [hrun]
  refine ⟨fun hnone => by simp only [State.route, hnone]; rfl, fun r hr => ⟨fun i hi hlow => ?_, fun hclear hlaw => ?_⟩⟩
  · simp only [State.route, hr, State.modrConflict_some (s := s) hi hlow]
    rfl
  simp only [State.route, hr, State.modrConflict_clear (s := s) hclear]
  refine ⟨_, rfl, ?_⟩
  have hrecords₁ : EntryRecords (s.onEntry e fun y => { y with route := some (r.withAccess x) }).leases e := hlaw.entryRecords e
  have hlost := State.loseVisibility_sightLost hrecords₁ x.vis (some r.seg)
  obtain ⟨hrecords, honly, -⟩ := State.loseVisibility_entry hrecords₁ x.vis (some r.seg)
  generalize hu : (s.onEntry e fun y => { y with route := some (r.withAccess x) }).loseVisibility e x.vis (some r.seg) = u
    at hlost hrecords honly
  have hcut {i : Slot} {k : Lease} := State.cutHeld_leases_some hrecords x.maxLease (i := i) (k := k)
  generalize hv : u.cutHeld e x.maxLease = v at hcut
  have hbeside : v.besideTable = (s.onEntry e fun y => { y with route := some (r.withAccess x) }).besideTable := by
    rw [← hv, ← hu]
    simp
  have hnotices : v.notices = u.notices := by
    rw [← hv]
    simp
  have hcounter : v.tokenCounter = u.tokenCounter := by
    rw [← hv]
    simp
  obtain ⟨hports, hsegs, hdefaults, hrights, hbuffers, hresponses, hadr, hadmSel, hpending⟩ := besideTable_frame hbeside
  have hdir := besideTable_directory hbeside
  have hroute : (s.onEntry e fun y => { y with route := some (r.withAccess x) }).route e = some (r.withAccess x) := by
    simp [State.route]
  have hfree {i : Slot} (hi : u.leases[i] = none) : v.leases[i] = none := by
    cases hl : v.leases[i] with
    | none => rfl
    | some k =>
      obtain ⟨l, hl', -⟩ := hcut.1 hl
      rw [hi] at hl'
      cases hl'
  have hheld {i : Slot} {l : Lease} (hl : u.leases[i] = some l) (he : l.entry = e) : v.leases[i] = some (l.cut x.maxLease) :=
    hcut.2 ⟨l, hl, if_pos he⟩
  refine ⟨?_, fun f hf => ?_, fun i l he => ?_, fun i hi => ?_, fun i l hl he hvis => ?_, fun i l hl he hvis => ?_, fun q hq => ?_,
    fun hnone => ?_, State.respond_self .., fun q hq => ?_, hports, hsegs, hdefaults, hrights, hbuffers, hadr, hadmSel,
    hpending⟩
  · refine (congrArg (fun d => d[e]) hdir).trans ((tabUpd_self _ _ _).trans ?_)
    rfl
  · exact (congrArg (fun d => d[f]) hdir).trans (tabUpd_other _ _ _ _ hf.symm)
  · refine Iff.trans ?_ (honly.others i l he)
    constructor
    · intro hl
      obtain ⟨k, hk, hkl⟩ := hcut.1 hl
      split at hkl
      · next hke =>
        rw [← hkl, Lease.cut_entry] at he
        exact absurd hke he
      · exact hkl ▸ hk
    · exact fun hl => hcut.2 ⟨l, hl, if_neg he⟩
  · refine hfree ?_
    cases hl : u.leases[i] with
    | none => rfl
    | some l =>
      obtain ⟨k, hk, -⟩ := honly.stems i l hl
      exact absurd (hi.symm.trans hk) nofun
  · obtain ⟨hgone, htold⟩ := hlost.gone i l hl he hvis
    exact ⟨hfree hgone, (congrArg (fun n => n[l.port]) hnotices).trans htold⟩
  · cases hp : l.isHeld with
    | true =>
      obtain ⟨hstays, huntold⟩ := hlost.held i l hl he hp hvis
      refine ⟨_, hheld hstays he, ?_⟩
      rw [Lease.cut_held hp]
      refine ⟨rfl, he, rfl, rfl, fun _ => ⟨rfl, rfl, (congrArg (fun n => n[l.port]) hnotices).trans huntold, rfl⟩, fun h => ?_⟩
      cases h
    | false =>
      by_cases hfirst : (s.onEntry e fun y => { y with route := some (r.withAccess x) }).Succeeds e x.vis l
      · obtain ⟨token, hlease, hcount, hfresh, htold⟩ := hlost.served i l hl he hp hvis hfirst
        refine ⟨_, hheld hlease he, rfl, he, rfl, rfl, nofun, fun _ => ⟨⟨fun _ => hfirst, fun _ => rfl⟩, fun _ => ?_, nofun⟩⟩
        refine ⟨?_, hcounter.trans hcount, fun j k hk hkh hke => hfresh j k hk hkh hke, ?_⟩
        · have hclip : (s.onEntry e fun y => { y with route := some (r.withAccess x) }).clip e l.requested =
              min l.requested x.maxLease := State.clip_installed hroute l.requested
          rw [Lease.cut_held rfl, hclip]
          exact min_eq_left (Nat.mul_le_mul_right _ (min_le_right _ _))
        · rw [State.segOf_installed (r := r.withAccess x) hroute] at htold
          exact (congrArg (fun n => n[l.port]) hnotices).trans htold
      · obtain ⟨n, hlease, huntold, hkeeps, hloses⟩ := hlost.waits i l hl he hp hvis hfirst
        refine ⟨_, hheld hlease he, ?_⟩
        rw [Lease.cut_pending rfl]
        refine ⟨rfl, he, rfl, rfl, nofun, fun _ => ⟨⟨nofun, fun h => absurd h hfirst⟩, nofun, fun _ => ?_⟩⟩
        exact ⟨(congrArg (fun n => n[l.port]) hnotices).trans huntold, hkeeps, hloses⟩
  · exact (congrArg (fun n => n[q]) hnotices).trans (hlost.untold q hq)
  · exact hcounter.trans (hlost.counter hnone)
  · exact (State.respond_other hq ..).trans (congrArg (fun n => n[q]) hresponses)
end Sys2Proof.Machine
end

section
/-! SUPPORT. Step 2 of a port reset (R129): the records of a port freed, entry by entry, each entry by itself. -/

namespace Sys2Proof.Machine

/-! ### The records of one entry, unchanged -/

/-- The records of `e` are the same, and no FREE slot has been filled. -/
structure EntrySame (e : EntryIx) (s t : State) : Prop where
  same : ∀ (i : Slot) (l : Lease), l.entry = e → (t.leases[i] = some l ↔ s.leases[i] = some l)
  free : ∀ i : Slot, s.leases[i] = none → t.leases[i] = none

theorem EntrySame.refl (e : EntryIx) (s : State) : EntrySame e s s := ⟨fun _ _ _ => Iff.rfl, fun _ => id⟩

theorem EntrySame.trans {e : EntryIx} {s t u : State} (h : EntrySame e s t) (h' : EntrySame e t u) : EntrySame e s u :=
  ⟨fun i l hl => (h'.same i l hl).trans (h.same i l hl), fun i hi => h'.free i (h.free i hi)⟩

theorem OnlyEntry.free {f : EntryIx} {s t : State} (h : OnlyEntry f s t) {i : Slot} (hi : s.leases[i] = none) :
    t.leases[i] = none := by
  cases hl : t.leases[i] with
  | none => rfl
  | some l =>
    obtain ⟨k, hk, -⟩ := h.stems i l hl
    rw [hi] at hk
    cases hk

theorem OnlyEntry.entrySame {e f : EntryIx} {s t : State} (h : OnlyEntry f s t) (hne : e ≠ f) : EntrySame e s t :=
  ⟨fun i l hl => h.others i l (hl ▸ hne), fun _ hi => h.free hi⟩

/-- A search finds the same where the records that it looks for are the same. -/
theorem State.findLease_congr {s t : State} {f : Lease → Bool}
    (h : ∀ (i : Slot) (l : Lease), f l = true → (t.leases[i] = some l ↔ s.leases[i] = some l)) :
    t.findLease f = s.findLease f := by
  unfold State.findLease
  refine congrArg (fun g => allSlots.findSome? g) (funext fun i => ?_)
  cases ht : t.leases[i] with
  | none =>
    cases hs : s.leases[i] with
    | none => rfl
    | some l =>
      have hl : f l ≠ true := fun hf => nomatch ht.symm.trans ((h i l hf).2 hs)
      exact (if_neg hl).symm
  | some l =>
    by_cases hl : f l = true
    · rw [(h i l hl).1 ht]
    · cases hs : s.leases[i] with
      | none => exact if_neg hl
      | some k =>
        by_cases hk : f k = true
        · cases ht.symm.trans ((h i k hk).2 hs)
          rfl
        · exact (if_neg hl).trans (if_neg hk).symm

section
variable {e : EntryIx} {s t : State} (h : EntrySame e s t)
include h

theorem EntrySame.heldOn : t.heldOn e = s.heldOn e :=
  State.findLease_congr fun i l hl => h.same i l (by simp only [Bool.and_eq_true, decide_eq_true_eq] at hl; exact hl.1)

theorem EntrySame.pendingAt (k : Nat) : t.pendingAt e k = s.pendingAt e k :=
  State.findLease_congr fun i l hl => h.same i l (by simp only [Bool.and_eq_true, decide_eq_true_eq] at hl; exact hl.1.1)
end

/-! ### The record of a port, and the holder -/

section
variable {s : State} {e : EntryIx}

theorem Holder.heldOn_eq (h : Holder s.leases e) {i : Slot} {l : Lease} (hl : s.leases[i] = some l) (he : l.entry = e)
    (hh : l.isHeld = true) : s.heldOn e = some (i, l) := by
  cases hx : s.heldOn e with
  | none => exact Bool.noConfusion ((State.heldOn_none.1 hx i l hl he).symm.trans hh)
  | some x =>
    obtain ⟨j, y⟩ := x
    obtain ⟨hy, hye, hyh⟩ := State.heldOn_some hx
    obtain rfl := h.single j i y l hy hl hye he hyh hh
    cases hy.symm.trans hl
    rfl

theorem EntryRecords.recordOf_eq (h : EntryRecords s.leases e) {i : Slot} {l : Lease} (hl : s.leases[i] = some l)
    (he : l.entry = e) : s.recordOf l.port e = some (i, l) := by
  cases hx : s.recordOf l.port e with
  | none => exact absurd rfl (State.recordOf_none.1 hx i l hl he)
  | some x =>
    obtain ⟨j, y⟩ := x
    obtain ⟨hy, hye, hyp⟩ := State.recordOf_some hx
    obtain rfl := h.unique j i y l hy hl hye he (.inr (.inl hyp))
    cases hy.symm.trans hl
    rfl

theorem Lease.pending_order {l : Lease} (h : l.isHeld = false) : { l with status := .pending l.order } = l := by
  obtain ⟨p, f, g, d, st⟩ := l
  cases st with
  | held t n => cases h
  | pending o => rfl

theorem Lease.isHeld_of_order {l : Lease} (h : 1 ≤ l.order) : l.isHeld = false := by
  obtain ⟨p, f, g, d, st⟩ := l
  cases st with
  | held t n => cases h
  | pending o => rfl

/-- A record moves forward exactly when it is a request behind the place. -/
theorem Lease.moveUp_behind {l : Lease} (he : l.entry = e) (k : Nat) :
    l.moveUp e k = if k < l.order then { l with status := .pending (l.order - 1) } else l := by
  obtain ⟨p, f, g, d, st⟩ := l
  cases st with
  | held t n => rfl
  | pending o =>
    unfold Lease.moveUp
    dsimp only at he ⊢
    simp only [he, true_and]
    rfl

/-! ### The part of one entry (R129) -/

/-- What becomes of the records of `e` when the port `q` is reset. -/
structure OwnFreed (q : Port) (e : EntryIx) (s u : State) : Prop where
  gone : ∀ (i : Slot) (l : Lease), s.leases[i] = some l → l.entry = e → l.port = q → u.leases[i] = none
  kept : (∀ (j : Slot) (k : Lease), s.leases[j] = some k → k.entry = e → k.port ≠ q) →
    ∀ (i : Slot) (l : Lease), s.leases[i] = some l → l.entry = e → u.leases[i] = some l
  behindHolder : ∀ (j : Slot) (k : Lease), s.leases[j] = some k → k.entry = e → k.port = q → k.isHeld = true →
    ∀ (i : Slot) (l : Lease), s.leases[i] = some l → l.entry = e → l.port ≠ q →
      (l.order = 1 → ∃ token : Byte,
        u.leases[i] = some { l with status := .held token (s.clip e l.requested * Config.ticksPerMs) } ∧
        ∀ (a : Slot) (x : Lease), s.leases[a] = some x → x.isHeld = true → x.port ≠ q → x.token ≠ token) ∧
      (1 < l.order → u.leases[i] = some { l with status := .pending (l.order - 1) })
  behindRequest : ∀ (j : Slot) (k : Lease), s.leases[j] = some k → k.entry = e → k.port = q → k.isHeld = false →
    ∀ (i : Slot) (l : Lease), s.leases[i] = some l → l.entry = e → l.port ≠ q →
      u.leases[i] = some (if k.order < l.order then { l with status := .pending (l.order - 1) } else l)

/-- The port has no record there. -/
theorem OwnFreed.of_none {q : Port} (h : s.recordOf q e = none) : OwnFreed q e s s :=
  have hnone := State.recordOf_none.1 h
  ⟨fun i l hl he hp => absurd hp (hnone i l hl he), fun _ _ _ hl _ => hl,
    fun j k hk hke hkp => absurd hkp (hnone j k hk hke), fun j k hk hke hkp => absurd hkp (hnone j k hk hke)⟩

/-- The records left when a HELD one is freed. -/
theorem State.setLease_none_some {i j : Slot} {l : Lease} :
    (s.setLease j none).leases[i] = some l ↔ j ≠ i ∧ s.leases[i] = some l := by
  rw [State.setLease_leases, tabUpd_some]
  simp

/-- The port held the entry: the oldest request follows. -/
theorem EntryRecords.ownFreed_held (hs : EntryRecords s.leases e) {j : Slot} {k : Lease} (hk : s.leases[j] = some k)
    (hke : k.entry = e) (hkh : k.isHeld = true) : OwnFreed k.port e s ((s.setLease j none).promote e) := by
  have hrequests : Requests (s.setLease j none).leases e 3 := by
    rw [← State.freeRecord_held hkh]
    exact (hs.freeHeld hk hke hkh).requests
  have hsame {i : Slot} {l : Lease} (hl : s.leases[i] = some l) (hp : l.port ≠ k.port) :
      (s.setLease j none).leases[i] = some l := by
    refine State.setLease_none_some.2 ⟨?_, hl⟩
    rintro rfl
    cases hk.symm.trans hl
    exact hp rfl
  have hholder {i : Slot} {l : Lease} (hl : s.leases[i] = some l) (he : l.entry = e) (hp : l.port = k.port) : i = j :=
    hs.unique i j l k hl hk he hke (.inr (.inl hp))
  refine ⟨fun i l hl he hp => ?_, fun hnone => absurd rfl (hnone j k hk hke), fun j' k' hk' hke' hkp' hkh' i l hl he hp => ?_,
    fun j' k' hk' hke' hkp' hkh' => ?_⟩
  · obtain rfl := hholder hl he hp
    refine State.promote_free ?_ e
    rw [State.setLease_leases, tabUpd_self]
  · constructor
    · intro ho
      have hp₁ : (s.setLease j none).leases[i] = some { l with status := .pending 1 } := by
        rw [← ho, Lease.pending_order (Lease.isHeld_of_order ho.ge)]
        exact hsame hl hp
      obtain ⟨hlease, -, -, hfresh⟩ := hrequests.promote_first hp₁ he
      exact ⟨_, hlease, fun a x hx hxh hxp => hfresh a x (hsame hx hxp) hxh⟩
    · intro ho
      have hp₁ : (s.setLease j none).leases[i] = some { l with status := .pending (l.order - 1 + 1) } := by
        rw [Nat.sub_add_cancel ho.le, Lease.pending_order (Lease.isHeld_of_order ho.le)]
        exact hsame hl hp
      exact (hrequests.promote_behind hp₁ he (by omega)).1
  · obtain rfl := hholder hk' hke' hkp'
    cases hk.symm.trans hk'
    exact Bool.noConfusion (hkh.symm.trans hkh')

/-- The port waited for the entry: those behind it move forward. -/
theorem EntryRecords.ownFreed_pending (hs : EntryRecords s.leases e) {j : Slot} {k : Lease} (hk : s.leases[j] = some k)
    (hke : k.entry = e) (hkh : k.isHeld = false) : OwnFreed k.port e s (s.freeRecord (j, k)) := by
  have hown {i : Slot} {l : Lease} (hl : s.leases[i] = some l) (he : l.entry = e) (hp : l.port = k.port) : i = j :=
    hs.unique i j l k hl hk he hke (.inr (.inl hp))
  refine ⟨fun i l hl he hp => ?_, fun hnone => absurd rfl (hnone j k hk hke), fun j' k' hk' hke' hkp' hkh' => ?_,
    fun j' k' hk' hke' hkp' hkh' i l hl he hp => ?_⟩
  · obtain rfl := hown hl he hp
    rw [State.freeRecord_leases, if_pos rfl]
  · obtain rfl := hown hk' hke' hkp'
    cases hk.symm.trans hk'
    exact Bool.noConfusion (hkh'.symm.trans hkh)
  · obtain rfl := hown hk' hke' hkp'
    cases hk.symm.trans hk'
    refine State.freeRecord_leases_some.2 ⟨?_, l, hl, ?_⟩
    · rintro rfl
      cases hk.symm.trans hl
      exact hp rfl
    · rw [Lease.afterFree_pending hkh, hke, Lease.moveUp_behind he]

theorem EntryRecords.ownFreed (hs : EntryRecords s.leases e) (q : Port) : OwnFreed q e s (s.freeOwn q e) := by
  cases hrec : s.recordOf q e with
  | none =>
    rw [State.freeOwn_none hrec]
    exact .of_none hrec
  | some x =>
    obtain ⟨j, k⟩ := x
    obtain ⟨hk, hke, rfl⟩ := State.recordOf_some hrec
    cases hh : k.isHeld with
    | true =>
      rw [State.freeOwn_held hrec hh]
      exact hs.ownFreed_held hk hke hh
    | false =>
      rw [State.freeOwn_pending hrec hh, ← hke, ← State.freeRecord_pending hh, hke]
      exact hs.ownFreed_pending hk hke hh

theorem OnlyEntry.freeOwn (s : State) (q : Port) (e : EntryIx) : OnlyEntry e s (s.freeOwn q e) := by
  cases hrec : s.recordOf q e with
  | none =>
    rw [State.freeOwn_none hrec]
    exact .refl e s
  | some x =>
    obtain ⟨j, k⟩ := x
    obtain ⟨hk, rfl, -⟩ := State.recordOf_some hrec
    unfold State.freeOwn
    rw [hrec]
    dsimp only
    split
    · exact .freeAndPromote hk rfl
    · exact .freeRecord s hk

/-- What is HELD by another port stays as it is. -/
theorem OwnFreed.keeps_held {q : Port} (h : OwnFreed q e s t) (hs : EntryRecords s.leases e) {a : Slot} {x : Lease}
    (hx : s.leases[a] = some x) (hxe : x.entry = e) (hxh : x.isHeld = true) (hxp : x.port ≠ q) : t.leases[a] = some x := by
  by_cases hown : ∃ (j : Slot) (k : Lease), s.leases[j] = some k ∧ k.entry = e ∧ k.port = q
  · obtain ⟨j, k, hk, hke, hkp⟩ := hown
    cases hkh : k.isHeld with
    | true =>
      obtain rfl := hs.holder.single a j x k hx hk hxe hke hxh hkh
      cases hx.symm.trans hk
      exact absurd hkp hxp
    | false =>
      have hx₀ : ¬ k.order < x.order := fun ho =>
        Bool.noConfusion ((Lease.isHeld_of_order (by omega)).symm.trans hxh)
      rw [h.behindRequest j k hk hke hkp hkh a x hx hxe hxp, if_neg hx₀]
  · exact h.kept (fun j k hk hke hkp => hown ⟨j, k, hk, hke, hkp⟩) a x hx hxe

end

end Sys2Proof.Machine
end

section
/-! SUPPORT. The promotions of a port reset (R122, R129): whom they serve, the notices and the token counter after them, and the
entries taken together. -/

namespace Sys2Proof.Machine

/-! ### Whom a reset promotes, and what it tells -/

/-- The port `q` holds `e`, and a request waits behind it. -/
def State.issuesAt (s : State) (q : Port) (e : EntryIx) : Bool :=
  match s.heldOn e with
  | some (_, h) => h.port = q && (s.pendingAt e 1).isSome
  | none => false

/-- The oldest request on `e` is of port `k`. -/
def State.servesAt (s : State) (k : Port) (e : EntryIx) : Bool :=
  match s.pendingAt e 1 with
  | some (_, l) => decide (l.port = k)
  | none => false

/-- The token of the holder of `e`. -/
def State.holderToken (s : State) (e : EntryIx) : Byte :=
  match s.heldOn e with
  | some (_, l) => l.token
  | none => 0#8

/-- The token counter after the issue to the holder of `e`. -/
def State.counterAfter (s : State) (e : EntryIx) : Byte :=
  match s.heldOn e with
  | some (_, l) => if l.token = 255#8 then 1#8 else l.token + 1#8
  | none => 0#8

section
variable {s t : State} {q : Port} {e : EntryIx}

theorem State.issuesAt_iff : s.issuesAt q e = true ↔
    ∃ j h i l, s.heldOn e = some (j, h) ∧ h.port = q ∧ s.pendingAt e 1 = some (i, l) := by
  unfold State.issuesAt
  cases s.heldOn e with
  | none => simp
  | some x =>
    obtain ⟨j, k⟩ := x
    simp [Option.isSome_iff_exists]

theorem EntrySame.issuesAt (h : EntrySame e s t) (q : Port) : t.issuesAt q e = s.issuesAt q e := by
  simp only [State.issuesAt, h.heldOn, h.pendingAt]

theorem EntrySame.servesAt (h : EntrySame e s t) (k : Port) : t.servesAt k e = s.servesAt k e := by
  simp only [State.servesAt, h.pendingAt]

theorem EntrySame.holderToken (h : EntrySame e s t) : t.holderToken e = s.holderToken e := by
  simp only [State.holderToken, h.heldOn]

theorem EntrySame.counterAfter (h : EntrySame e s t) : t.counterAfter e = s.counterAfter e := by
  simp only [State.counterAfter, h.heldOn]

theorem State.setLease_pendingAt {j : Slot} {k : Lease} (hk : s.leases[j] = some k) (hh : k.isHeld = true) (n : Nat) :
    (s.setLease j none).pendingAt e n = s.pendingAt e n := by
  refine State.findLease_congr fun i l hl => State.setLease_none_some.trans (and_iff_right_of_imp fun hi => ?_)
  rintro rfl
  cases hk.symm.trans hi
  simp [hh] at hl

/-- With a request behind the record that the reset frees: the promotion's token, notice and holder. -/
theorem EntryRecords.freeOwn_issues (hs : EntryRecords s.leases e) (h : s.issuesAt q e = true) :
    ∃ i l, s.pendingAt e 1 = some (i, l) ∧ (s.freeOwn q e).tokenCounter = (s.freeOwn q e).counterAfter e ∧
      (s.freeOwn q e).notices =
        tabUpd s.notices l.port (NoticeQueue.store .leaseGranted (some e) (s.segOf e) ((s.freeOwn q e).holderToken e)) := by
  obtain ⟨j, k, i, l, hheld, rfl, hfirst⟩ := State.issuesAt_iff.1 h
  obtain ⟨hk, hke, hkh⟩ := State.heldOn_some hheld
  obtain ⟨-, hle, -⟩ := State.pendingAt_some hfirst
  have hfirst' : (s.setLease j none).pendingAt e 1 = some (i, l) := by rw [State.setLease_pendingAt hk hkh, hfirst]
  have hrec : s.recordOf k.port e = some (j, k) := hs.recordOf_eq hk hke
  have hafter : EntryRecords ((s.setLease j none).promote e).leases e :=
    hs.freeAndPromote hk hke hkh (by rw [State.freeRecord_held hkh])
  have hholder := hafter.holder.heldOn_eq ((State.promote_leases_some hfirst').2 (.inl ⟨rfl, rfl⟩)) hle rfl
  rw [State.freeOwn_held hrec hkh]
  refine ⟨i, l, hfirst, ?_, ?_⟩
  · rw [State.promote_tokenCounter hfirst']
    simp only [State.counterAfter, hholder]
    rfl
  · rw [State.promote_notices hfirst']
    simp only [State.holderToken, hholder]
    rfl

/-- Without one: neither. -/
theorem EntryRecords.freeOwn_silent (hs : EntryRecords s.leases e) (h : s.issuesAt q e = false) :
    (s.freeOwn q e).tokenCounter = s.tokenCounter ∧ (s.freeOwn q e).notices = s.notices := by
  cases hrec : s.recordOf q e with
  | none =>
    rw [State.freeOwn_none hrec]
    exact ⟨rfl, rfl⟩
  | some x =>
    obtain ⟨j, k⟩ := x
    obtain ⟨hk, hke, hkp⟩ := State.recordOf_some hrec
    cases hh : k.isHeld with
    | false =>
      rw [State.freeOwn_pending hrec hh]
      exact ⟨rfl, rfl⟩
    | true =>
      have hnone : s.pendingAt e 1 = none := by
        by_contra hsome
        obtain ⟨⟨i, l⟩, hl⟩ := Option.ne_none_iff_exists'.1 hsome
        have hissues := State.issuesAt_iff.2 ⟨j, k, i, l, hs.holder.heldOn_eq hk hke hh, hkp, hl⟩
        exact Bool.noConfusion (hissues.symm.trans h)
      rw [State.freeOwn_held hrec hh, State.promote_none (by rw [State.setLease_pendingAt hk hh, hnone])]
      exact ⟨rfl, rfl⟩

theorem EntryRecords.freeOwn_tokenCounter (hs : EntryRecords s.leases e) (q : Port) : (s.freeOwn q e).tokenCounter =
    if s.issuesAt q e = true then (s.freeOwn q e).counterAfter e else s.tokenCounter := by
  split
  · next h =>
    obtain ⟨-, -, -, hcounter, -⟩ := hs.freeOwn_issues h
    exact hcounter
  · next h => exact (hs.freeOwn_silent (Bool.eq_false_iff.2 h)).1

theorem EntryRecords.freeOwn_notices (hs : EntryRecords s.leases e) (q k : Port) : (s.freeOwn q e).notices[k] =
    if s.issuesAt q e = true ∧ s.servesAt k e = true then
      (s.notices[k]).store .leaseGranted (some e) (s.segOf e) ((s.freeOwn q e).holderToken e)
    else s.notices[k] := by
  cases h : s.issuesAt q e with
  | false => rw [(hs.freeOwn_silent h).2, if_neg (by simp)]
  | true =>
    obtain ⟨i, l, hfirst, -, hnotices⟩ := hs.freeOwn_issues h
    rw [hnotices]
    by_cases hk : l.port = k
    · subst hk
      rw [tabUpd_self, if_pos ⟨rfl, by simp [State.servesAt, hfirst]⟩]
    · rw [tabUpd_other _ _ _ _ hk, if_neg (by simp [State.servesAt, hfirst, hk])]

/-! ### All entries -/

/-- The records of `q` on the entries `es` freed, entry by entry: `u` is `s` after it. -/
structure AllFreed (q : Port) (es : List EntryIx) (s u : State) : Prop where
  freed : ∀ e ∈ es, OwnFreed q e s u
  others : ∀ e, e ∉ es → EntrySame e s u
  stems : ∀ (i : Slot) (l : Lease), u.leases[i] = some l → ∃ k, s.leases[i] = some k ∧ l.port = k.port ∧ l.entry = k.entry
  counter : u.tokenCounter = match (es.filter (s.issuesAt q)).getLast? with
    | some e => u.counterAfter e
    | none => s.tokenCounter
  notices : ∀ k : Port, u.notices[k] = ((es.filter (s.issuesAt q)).filter (s.servesAt k)).foldl
    (fun n e => n.store .leaseGranted (some e) (s.segOf e) (u.holderToken e)) s.notices[k]

/-- What a later entry's part leaves of this one's. -/
theorem OwnFreed.before {u : State} (h : OwnFreed q e s t) (hu : EntrySame e t u) : OwnFreed q e s u where
  gone i l hl he hp := hu.free i (h.gone i l hl he hp)
  kept hnone i l hl he := (hu.same i l he).2 (h.kept hnone i l hl he)
  behindHolder j k hk hke hkp hkh i l hl he hp := by
    obtain ⟨hfirst, hbehind⟩ := h.behindHolder j k hk hke hkp hkh i l hl he hp
    refine ⟨fun ho => ?_, fun ho => (hu.same i _ (by exact he)).2 (hbehind ho)⟩
    obtain ⟨token, hlease, hfresh⟩ := hfirst ho
    exact ⟨token, (hu.same i _ (by exact he)).2 hlease, hfresh⟩
  behindRequest j k hk hke hkp hkh i l hl he hp := by
    refine (hu.same i _ ?_).2 (h.behindRequest j k hk hke hkp hkh i l hl he hp)
    split
    · exact he
    · exact he

/-- An earlier entry's part leaves this one's as it was: what is HELD by other ports is HELD still. -/
theorem OwnFreed.after {u : State} (hs : EntrySame e s t) (hclip : t.clip e = s.clip e)
    (hheld : ∀ (a : Slot) (x : Lease), s.leases[a] = some x → x.isHeld = true → x.port ≠ q → t.leases[a] = some x)
    (h : OwnFreed q e t u) : OwnFreed q e s u where
  gone i l hl he hp := h.gone i l ((hs.same i l he).2 hl) he hp
  kept hnone i l hl he :=
    h.kept (fun j k hk hke => hnone j k ((hs.same j k hke).1 hk) hke) i l ((hs.same i l he).2 hl) he
  behindHolder j k hk hke hkp hkh i l hl he hp := by
    obtain ⟨hfirst, hbehind⟩ :=
      h.behindHolder j k ((hs.same j k hke).2 hk) hke hkp hkh i l ((hs.same i l he).2 hl) he hp
    refine ⟨fun ho => ?_, hbehind⟩
    obtain ⟨token, hlease, hfresh⟩ := hfirst ho
    exact ⟨token, hclip ▸ hlease, fun a x hx hxh hxp => hfresh a x (hheld a x hx hxh hxp) hxh hxp⟩
  behindRequest j k hk hke hkp hkh i l hl he hp :=
    h.behindRequest j k ((hs.same j k hke).2 hk) hke hkp hkh i l ((hs.same i l he).2 hl) he hp

theorem AllFreed.nil (q : Port) (s : State) : AllFreed q [] s s :=
  ⟨nofun, fun e _ => .refl e s, fun _ l hl => ⟨l, hl, rfl, rfl⟩, rfl, fun _ => rfl⟩

theorem AllFreed.cons {es : List EntryIx} {u : State} (hs : LeaseLaw s) (he : e ∉ es)
    (h : AllFreed q es (s.freeOwn q e) u) : AllFreed q (e :: es) s u := by
  have hentry := hs.entryRecords e
  have hother {f : EntryIx} (hf : f ≠ e) : EntrySame f s (s.freeOwn q e) := (OnlyEntry.freeOwn s q e).entrySame hf
  have hrest : EntrySame e (s.freeOwn q e) u := h.others e he
  have hne {f : EntryIx} (hf : f ∈ es) : f ≠ e := fun heq => he (heq ▸ hf)
  have hdir : (s.freeOwn q e).directory = s.directory := besideTable_directory (s.freeOwn_besideTable q e)
  have hseg : (s.freeOwn q e).segOf = s.segOf := by
    funext f
    simp only [State.segOf, State.route, hdir]
  have hclip (f : EntryIx) : (s.freeOwn q e).clip f = s.clip f := by
    funext d
    simp only [State.clip, State.maxLeaseOr, State.route, hdir]
  have hissues : es.filter ((s.freeOwn q e).issuesAt q) = es.filter (s.issuesAt q) :=
    List.filter_congr fun f hf => (hother (hne hf)).issuesAt q
  have hserves (k : Port) : (es.filter (s.issuesAt q)).filter ((s.freeOwn q e).servesAt k) =
      (es.filter (s.issuesAt q)).filter (s.servesAt k) :=
    List.filter_congr fun f hf => (hother (hne (List.mem_of_mem_filter hf))).servesAt k
  refine ⟨fun f hf => ?_, fun f hf => ?_, fun i l hl => ?_, ?_, fun k => ?_⟩
  · obtain rfl | hf := List.mem_cons.1 hf
    · exact (hentry.ownFreed q).before hrest
    · refine .after (hother (hne hf)) (hclip f) (fun a x hx hxh hxp => ?_) (h.freed f hf)
      by_cases hxe : x.entry = e
      · exact (hentry.ownFreed q).keeps_held hentry hx hxe hxh hxp
      · exact ((hother hxe).same a x rfl).2 hx
  · rw [List.mem_cons, not_or] at hf
    exact (hother hf.1).trans (h.others f hf.2)
  · obtain ⟨k, hk, hlk, hle⟩ := h.stems i l hl
    obtain ⟨k', hk', hkk, hke, -⟩ := (OnlyEntry.freeOwn s q e).stems i k hk
    exact ⟨k', hk', hlk.trans hkk, hle.trans hke⟩
  · rw [h.counter, hissues, List.filter_cons]
    by_cases hi : s.issuesAt q e = true
    · rw [if_pos hi, List.getLast?_cons, hentry.freeOwn_tokenCounter q, if_pos hi]
      cases (es.filter (s.issuesAt q)).getLast? with
      | none => exact hrest.counterAfter.symm
      | some f => rfl
    · rw [if_neg hi, hentry.freeOwn_tokenCounter q, if_neg hi]
  · rw [h.notices k, hissues, hserves, hseg, List.filter_cons, hentry.freeOwn_notices q k]
    by_cases hi : s.issuesAt q e = true
    · rw [if_pos hi, List.filter_cons]
      by_cases hk : s.servesAt k e = true
      · rw [if_pos ⟨hi, hk⟩, if_pos hk, List.foldl_cons, hrest.holderToken]
      · rw [if_neg fun hc => hk hc.2, if_neg hk]
    · rw [if_neg hi, if_neg fun hc => hi hc.1]

/-- The tables alone are read. -/
theorem AllFreed.of_same {es : List EntryIx} {u : State} (hleases : t.leases = s.leases) (hdir : t.directory = s.directory)
    (hcounter : t.tokenCounter = s.tokenCounter) (hnotices : t.notices = s.notices) (h : AllFreed q es t u) :
    AllFreed q es s u := by
  have hsame (e : EntryIx) : EntrySame e s t := by
    refine ⟨fun i l _ => by rw [hleases], fun i hi => ?_⟩
    rw [hleases]
    exact hi
  have hissues : t.issuesAt q = s.issuesAt q := funext fun e => (hsame e).issuesAt q
  have hserves (k : Port) : t.servesAt k = s.servesAt k := funext fun e => (hsame e).servesAt k
  have hseg : t.segOf = s.segOf := by
    funext e
    simp only [State.segOf, State.route, hdir]
  refine ⟨fun e he => .after (hsame e) ?_ (fun a x hx _ _ => by rw [hleases]; exact hx) (h.freed e he),
    fun e he => (hsame e).trans (h.others e he), fun i l hl => ?_, ?_, fun k => ?_⟩
  · funext d
    simp only [State.clip, State.maxLeaseOr, State.route, hdir]
  · rw [← hleases]
    exact h.stems i l hl
  · rw [h.counter, hissues, hcounter]
  · rw [h.notices k, hissues, hserves, hseg, hnotices]

theorem LeaseLaw.foldl_freeOwn {es : List EntryIx} (hes : es.Nodup) (q : Port) {s : State} (hs : LeaseLaw s) :
    AllFreed q es s (es.foldl (State.freeOwn q) s) := by
  induction es generalizing s with
  | nil => exact .nil q s
  | cons e es ih =>
    obtain ⟨he, hes⟩ := List.nodup_cons.1 hes
    exact .cons hs he (ih hes (hs.freeOwn q e))

/-- Step 2 of a port reset. -/
theorem LeaseLaw.allFreed (hs : LeaseLaw s) (q : Port) : AllFreed q allEntries s (s.freeAllOwn q) :=
  hs.foldl_freeOwn (List.nodup_finRange 48) q

/-- The port itself is told of no promotion. -/
theorem LeaseLaw.allFreed_own (hs : LeaseLaw s) (q : Port) : (s.freeAllOwn q).notices[q] = s.notices[q] := by
  have hnone : (allEntries.filter (s.issuesAt q)).filter (s.servesAt q) = [] := by
    refine List.filter_eq_nil_iff.2 fun e he hserves => ?_
    obtain ⟨j, k, i, l, hheld, hkp, hfirst⟩ := State.issuesAt_iff.1 (List.of_mem_filter he)
    obtain ⟨hk, hke, hkh⟩ := State.heldOn_some hheld
    obtain ⟨hl, hle, hlp, -⟩ := State.pendingAt_some hfirst
    have hlq : l.port = q := by simpa [State.servesAt, hfirst] using hserves
    exact (hs.entryRecords e).holder.apart j i k l hk hl hke hle hkh hlp (hkp.trans hlq.symm)
  rw [(hs.allFreed q).notices q, hnone]
  rfl

end

end Sys2Proof.Machine
end

section
/-! SUPPORT. O38 settled: a port reset (R21, R68, R129, R153). -/

namespace Sys2Proof.Machine

/-! ### What a release leaves of the other blocks -/

/-- A segment's configuration and counters. -/
def Arbiter.figures (a : Arbiter) : Bool × Bool × Nat × Nat × Nat × Nat :=
  (a.enable, a.shared, a.waitLimit, a.holdLimit, a.lossCount, a.recoveryCount)

/-- Every segment's configuration and counters, and the frame buffers: what no release touches. -/
def State.outside (s : State) : Vector (Bool × Bool × Nat × Nat × Nat × Nat) 8 × Vector FrameBuffer 4 :=
  (s.segs.map Arbiter.figures, s.buffers)

theorem State.outside_figures {s t : State} (h : t.outside = s.outside) (m : Seg) : t.segs[m].figures = s.segs[m].figures := by
  have hm := congrArg (fun o => o.1[m]) h
  simpa only [State.outside, Fin.getElem_fin, Vector.getElem_map] using hm

theorem State.outside_buffers {s t : State} (h : t.outside = s.outside) : t.buffers = s.buffers := (congrArg Prod.snd h :)

theorem figures_eq_iff {a b : Arbiter} : b.figures = a.figures ↔ b.enable = a.enable ∧ b.shared = a.shared ∧
    b.waitLimit = a.waitLimit ∧ b.holdLimit = a.holdLimit ∧ b.lossCount = a.lossCount ∧ b.recoveryCount = a.recoveryCount := by
  simp only [Arbiter.figures, Prod.mk.injEq]

section
variable (s : State) (m : Seg)

theorem State.onSeg_outside {f : Arbiter → Arbiter} (h : ∀ a, (f a).figures = a.figures) : (s.onSeg m f).outside = s.outside := by
  refine Prod.ext (Vector.ext fun i hi => ?_) rfl
  simp only [State.outside, Vector.getElem_map, State.onSeg_segs]
  by_cases hm : m = ⟨i, hi⟩
  · subst hm
    exact (congrArg Arbiter.figures (tabUpd_self s.segs _ f)).trans (h _)
  · exact congrArg Arbiter.figures (tabUpd_other s.segs m ⟨i, hi⟩ f hm)

theorem State.stopWait_outside (p : Port) : (s.stopWait m p).outside = s.outside := s.onSeg_outside m fun _ => rfl

theorem State.setSegState_outside (st : SegState) : (s.setSegState m st).outside = s.outside := s.onSeg_outside m fun _ => rfl

theorem State.grant_outside (p : Port) (t : Transfer) : (s.grant m p t).outside = s.outside := s.setSegState_outside m _

theorem State.refuseWaiter_outside (r : Reason) (p : Port) : (s.refuseWaiter m r p).outside = s.outside := by
  unfold State.refuseWaiter
  split
  · exact s.stopWait_outside m p
  · exact s.stopWait_outside m p

theorem State.refuseAll_outside (r : Reason) (ps : List Port) : (State.refuseAll m r ps s).outside = s.outside := by
  induction ps generalizing s with
  | nil => rfl
  | cons p ps ih => exact (ih (s.refuseWaiter m r p)).trans (s.refuseWaiter_outside m r p)

theorem State.serve_outside (ps : List Port) : (State.serve m ps s).outside = s.outside := by
  induction ps generalizing s with
  | nil =>
    have hempty : (s.onSeg m fun a => { a with queue := [] }).outside = s.outside := s.onSeg_outside m fun _ => rfl
    exact (State.setSegState_outside _ m .idle).trans hempty
  | cons p rest ih =>
    have hrest : (s.onSeg m fun a => { a with queue := rest }).outside = s.outside := s.onSeg_outside m fun _ => rfl
    by_cases hwaits : ∃ t, s.ports[p].ctx = .waiting t
    · obtain ⟨t, ht⟩ := hwaits
      cases hc : s.checkAtGrant p t.dir t.snap with
      | none =>
        rw [State.serve_granted ht hc]
        exact (State.grant_outside _ m p t).trans hrest
      | some r =>
        rw [State.serve_refused ht hc]
        exact (ih _).trans ((State.refuseWaiter_outside _ m r p).trans hrest)
    · rw [State.serve_skipped hwaits]
      exact (ih _).trans ((State.stopWait_outside _ m p).trans hrest)

theorem State.handOver_outside : (s.handOver m).outside = s.outside := by
  unfold State.handOver
  split
  · exact (State.refuseAll_outside _ m _ _).trans (s.onSeg_outside m fun _ => rfl)
  · exact s.serve_outside m _

theorem State.release_outside (p : Port) : (s.release m p).outside = s.outside :=
  (State.handOver_outside ((s.onEngine m Engine.endService).stopWait m p) m).trans
    (State.stopWait_outside (s.onEngine m Engine.endService) m p)

end

/-! ### Step 1 of a port reset by another port (R21, R68) -/

section
variable {s : State} {q : Port} {x : Transfer}

theorem State.resetContext_waiting (hc : s.ports[q].ctx = .waiting x) :
    s.resetContext q = (s.onPort q HostPort.portReset).onSeg x.snap.seg (fun a =>
      { a with queue := a.queue.erase q, waits := a.waits.set q .stopped }) := by
  simp only [State.resetContext, hc, State.leaveQueue, State.onSeg_stopWait]

theorem State.resetContext_resuming {r : Option Port} (hc : s.ports[q].ctx = .addressing x)
    (hst : s.segs[x.snap.seg].state = .recovering r) :
    s.resetContext q = (s.onPort q HostPort.portReset).onSeg x.snap.seg (fun a =>
      { a with state := .recovering none, waits := a.waits.set q .stopped }) := by
  simp only [State.resetContext, hc, hst, State.setSegState, State.onSeg_stopWait]

theorem State.resetContext_addressing (hc : s.ports[q].ctx = .addressing x) (hst : s.segs[x.snap.seg].state = .active q) :
    s.resetContext q = (s.onPort q HostPort.portReset).release x.snap.seg q := by
  simp only [State.resetContext, hc, hst]

theorem State.resetContext_relay (hc : s.ports[q].ctx = .relayWrite x ∨ s.ports[q].ctx = .relayRead x) :
    s.resetContext q = (s.onPort q HostPort.portReset).release x.snap.seg q := by
  obtain hc | hc := hc <;> simp only [State.resetContext, hc]

theorem State.resetContext_commandIn (hc : s.ports[q].ctx = .commandIn) :
    s.resetContext q = (s.onPort q HostPort.portReset).onBuffer q (fun _ => FrameBuffer.reset) := by
  simp only [State.resetContext, hc]

theorem State.resetContext_unseated
    (hc : s.ports[q].ctx = .idle ∨ (∃ x, s.ports[q].ctx = .broken x) ∨ ∃ n c, s.ports[q].ctx = .responseOut n c) :
    s.resetContext q = s.onPort q HostPort.portReset := by
  obtain hc | ⟨x, hc⟩ | ⟨n, c, hc⟩ := hc <;> simp only [State.resetContext, hc]

/-- What the first step does, by the place of the port: it leaves its queue, its recovery or its segment, or its frame goes. -/
inductive ContextReset (q : Port) (s : State) : State → Prop
  | seat (m : Seg) (f : Arbiter → Arbiter) (h : ∀ a, (f a).figures = a.figures) (hc : s.ports[q].ctx ≠ .commandIn) :
    ContextReset q s ((s.onPort q HostPort.portReset).onSeg m f)
  | release (m : Seg) (hc : s.ports[q].ctx ≠ .commandIn) : ContextReset q s ((s.onPort q HostPort.portReset).release m q)
  | frame : ContextReset q s ((s.onPort q HostPort.portReset).onBuffer q (fun _ => FrameBuffer.reset))
  | port (hc : s.ports[q].ctx ≠ .commandIn) : ContextReset q s (s.onPort q HostPort.portReset)

theorem RelayLaw.contextReset (h : RelayLaw s) (q : Port) : ContextReset q s (s.resetContext q) := by
  cases hc : s.ports[q].ctx with
  | idle => exact State.resetContext_unseated (.inl hc) ▸ .port (by rw [hc]; simp)
  | waiting x => exact State.resetContext_waiting hc ▸ .seat _ _ (fun _ => rfl) (by rw [hc]; simp)
  | addressing x =>
    by_cases hrec : ∃ r, s.segs[x.snap.seg].state = .recovering r
    · obtain ⟨r, hr⟩ := hrec
      exact State.resetContext_resuming hc hr ▸ .seat _ _ (fun _ => rfl) (by rw [hc]; simp)
    · have hst := h.addressing_holder hc fun r hr => hrec ⟨r, hr⟩
      exact State.resetContext_addressing hc hst ▸ .release _ (by rw [hc]; simp)
  | relayWrite x => exact State.resetContext_relay (.inl hc) ▸ .release _ (by rw [hc]; simp)
  | relayRead x => exact State.resetContext_relay (.inr hc) ▸ .release _ (by rw [hc]; simp)
  | broken x => exact State.resetContext_unseated (.inr (.inl ⟨x, hc⟩)) ▸ .port (by rw [hc]; simp)
  | commandIn => exact State.resetContext_commandIn hc ▸ .frame
  | responseOut n c => exact State.resetContext_unseated (.inr (.inr ⟨n, c, hc⟩)) ▸ .port (by rw [hc]; simp)

theorem ContextReset.port_eq {t : State} (h : ContextReset q s t) : t.ports[q] = s.ports[q].portReset := by
  have hself : (s.onPort q HostPort.portReset).ports[q] = s.ports[q].portReset := tabUpd_self _ _ _
  cases h with
  | seat m f hf hc => exact hself
  | release m hc =>
    refine (State.releaseBy_untransferred (s.onPort q HostPort.portReset) m q _ ?_).trans hself
    rw [hself]
    rfl
  | frame => exact hself
  | port hc => exact hself

theorem ContextReset.figures {t : State} (h : ContextReset q s t) (m : Seg) : t.segs[m].figures = s.segs[m].figures := by
  cases h with
  | seat k f hf hc => exact State.outside_figures ((s.onPort q HostPort.portReset).onSeg_outside k hf) m
  | release k hc => exact State.outside_figures ((s.onPort q HostPort.portReset).release_outside k q) m
  | frame => rfl
  | port hc => rfl

theorem ContextReset.buffer_other {t : State} (h : ContextReset q s t) {k : Port} (hk : k ≠ q) : t.buffers[k] = s.buffers[k] := by
  cases h with
  | seat m f hf hc => rfl
  | release m hc =>
    exact congrArg (fun b => b[k]) (State.outside_buffers ((s.onPort q HostPort.portReset).release_outside m q))
  | frame => exact tabUpd_other _ _ _ _ hk.symm
  | port hc => rfl

theorem ContextReset.buffer_self {t : State} (h : ContextReset q s t) (hb : BufferLaw s) : t.buffers[q] = FrameBuffer.reset := by
  have hempty (hc : s.ports[q].ctx ≠ .commandIn) : s.buffers[q] = FrameBuffer.reset := (hb q).2.2 hc
  cases h with
  | seat m f hf hc => exact hempty hc
  | release m hc =>
    exact (congrArg (fun b => b[q]) (State.outside_buffers ((s.onPort q HostPort.portReset).release_outside m q))).trans
      (hempty hc)
  | frame => exact tabUpd_self _ _ _
  | port hc => exact hempty hc

/-- A port that is IDLE has no place at any arbiter (R56, R57). -/
theorem RelayLaw.idle_unplaced (h : RelayLaw s) (hidle : s.ports[q].ctx = .idle) (m : Seg) :
    s.segs[m].state ≠ .active q ∧ s.segs[m].state ≠ .recovering (some q) ∧ q ∉ s.segs[m].queue := by
  obtain ⟨hqueue, -, -, -, -, hholder, hresume, -⟩ := h.2.1 m
  refine ⟨fun hst => ?_, fun hst => ?_, fun hq => ?_⟩
  · obtain hc | hc := hholder q hst
    · rw [hidle] at hc
      cases hc
    · rw [hidle] at hc
      cases hc
  · have hc := hresume q hst
    rw [hidle] at hc
    cases hc
  · have hc := (hqueue q).1 hq
    rw [hidle] at hc
    cases hc

end
/-! ### Step 2 (R129) -/

section
variable {q : Port} {s u : State}

theorem AllFreed.none_own (h : AllFreed q allEntries s u) {i : Slot} {l : Lease} (hl : u.leases[i] = some l) : l.port ≠ q := by
  intro hq
  obtain ⟨k, hk, hlk, -⟩ := h.stems i l hl
  have hgone := (h.freed k.entry (List.mem_finRange k.entry)).gone i k hk rfl (hlk ▸ hq)
  rw [hgone] at hl
  cases hl

theorem AllFreed.free (h : AllFreed q allEntries s u) {i : Slot} (hi : s.leases[i] = none) : u.leases[i] = none := by
  cases hl : u.leases[i] with
  | none => rfl
  | some l =>
    obtain ⟨k, hk, -⟩ := h.stems i l hl
    rw [hi] at hk
    cases hk

end

/-- The queue of a port that is reset holds PORT_RESET alone (R140). -/
theorem NoticeQueue.portReset_eq (p : Port) (n : NoticeQueue) : n.portReset p =
    { records := [{ kind := .portReset p, seq := n.seq + 1#8, entry := none, seg := none, token := 0#8 }]
      seq := n.seq + 1#8, lost := 0, alert := true } :=
  NoticeQueue.store_room (q := { n with records := [], lost := 0 }) (by simp) _ _ _ _

theorem exec_prst {p q : Port} {s : State} (hidle : s.ports[p].ctx = .idle) (hright : q = p ∨ s.rights[p].rights.admin = true) :
    exec (.prst p (portByte q)) s =
      .next ((s.portReset p q).respond p .ok 0x52#8 [portByte q, BitVec.ofNat 8 (s.leaseCount q)]) := by
  have hmay : MayCommand s p (.prst (portByte q)) := by
    refine ⟨hidle, hright.imp (fun hq => ?_) id⟩
    rw [hq, portByte, BitVec.toNat_ofNat]
    omega
  refine (exec_row_permitted (c := .prst (portByte q)) hmay).trans ?_
  simp only [State.perform, State.cmdPrst, decodePort_portByte]
  rfl

/-- Settles O38: the port's place at its arbiter is given up by its context state, and its records go entry by entry, each entry
by itself, so that the promotions' notices and the token counter follow the ascending order of the entries they serve. -/
theorem prstResetsPort : Obligations.PrstResetsPort := by
  unfold Obligations.PrstResetsPort
  intro p q s hidle hright hlease hrelay hbuffer issued toPort cleared
  have heffect := BusEffect.portReset s p q
  have hnotices : (if q = p then s.onPort q HostPort.clearRefusal else s.resetContext q).notices = s.notices := by
    split
    · rfl
    · exact s.resetContext_notices q
  have hsettings := (settings_eq_iff (s := s)).1 (s.portReset_settings p q)
  refine ⟨_, exec_prst hidle hright, ?_⟩
  unfold State.portReset at hsettings ⊢
  dsimp only at hsettings ⊢
  have hfreed := ((hlease.bus heffect).allFreed q).of_same heffect.leases heffect.directory heffect.tokenCounter hnotices
  have hown := (hlease.bus heffect).allFreed_own q
  rw [hnotices] at hown
  have hframe := State.freeAllOwn_frame (if q = p then s.onPort q HostPort.clearRefusal else s.resetContext q) q
  have hresponses := congrArg (fun r => r.2.2.2) heffect.records
  have hfigures (m : Seg) : (if q = p then s.onPort q HostPort.clearRefusal else s.resetContext q).segs[m].figures =
      s.segs[m].figures := by
    split
    · rfl
    · exact (hrelay.contextReset q).figures m
  have hbuffers (k : Port) (hk : k ≠ q) :
      (if q = p then s.onPort q HostPort.clearRefusal else s.resetContext q).buffers[k] = s.buffers[k] := by
    split
    · rfl
    · exact (hrelay.contextReset q).buffer_other hk
  generalize (if q = p then s.onPort q HostPort.clearRefusal else s.resetContext q).freeAllOwn q = u at *
  obtain ⟨hports, ⟨hsegs, hengines⟩, -, hbufs, hresps⟩ := hframe
  have hentry (f : EntryIx) := hfreed.freed f (List.mem_finRange f)
  refine ⟨fun i l hl => hfreed.none_own hl, fun i hi => hfreed.free hi, fun i l hl hlp =>
    ⟨fun hnone => (hentry l.entry).kept hnone i l hl rfl, fun j k hk hke hkp => ⟨fun hkh => ?_, fun hkh =>
      (hentry l.entry).behindRequest j k hk hke hkp hkh i l hl rfl hlp⟩⟩, ?_, fun k hk => ?_, hfreed.counter,
    State.respond_self .., fun hne => ?_, fun heq => ?_, fun k hkq hkp => ?_, fun k hk => ?_, fun m => ?_, hsettings⟩
  · obtain ⟨hfirst, hbehind⟩ := (hentry l.entry).behindHolder j k hk hke hkp hkh i l hl rfl hlp
    refine ⟨fun ho r hr => ?_, hbehind⟩
    rw [State.clip_installed hr] at hfirst
    exact hfirst ho
  · refine (tabUpd_self u.notices q _).trans ?_
    rw [NoticeQueue.portReset_eq, hown]
  · exact (tabUpd_other u.notices q k _ hk.symm).trans (hfreed.notices k)
  · rw [if_neg hne] at hports hsegs hengines hbufs
    have hreset := hrelay.contextReset q
    have hlaw := hrelay.resetContext q
    have hidle' : (s.resetContext q).ports[q].ctx = .idle := by rw [hreset.port_eq]; rfl
    refine ⟨(congrArg (fun x => x[q]) hports).trans hreset.port_eq, ?_,
      (congrArg (fun b => b[q]) hbufs).trans (hreset.buffer_self hbuffer), fun m => ?_, ?_⟩
    · exact (State.respond_other hne ..).trans (tabUpd_self u.responses q _)
    · have hunplaced := hlaw.idle_unplaced hidle' m
      rw [← hsegs] at hunplaced
      exact hunplaced
    · by_cases hc : s.ports[q].ctx = .commandIn
      · rw [State.resetContext_commandIn hc] at hports hsegs hengines
        refine ⟨cleared, hports, hsegs, hengines, fun x hx => ?_, fun x hx => ?_, fun x hx => ?_, fun _ => rfl⟩
        · cases hc.symm.trans hx
        · cases hc.symm.trans hx
        · obtain hx | hx := hx
          · cases hc.symm.trans hx
          · cases hc.symm.trans hx
      · exact ⟨s.resetContext q, hports, hsegs, hengines, fun x hx => State.resetContext_waiting hx,
          fun x hx => ⟨fun r hr => State.resetContext_resuming hx hr, fun hst => State.resetContext_addressing hx hst⟩,
          fun x hx => State.resetContext_relay hx,
          fun hx => State.resetContext_unseated (hx.imp_right (Or.imp_right fun hx => hx.resolve_left hc))⟩
  · rw [if_pos heq] at hports hsegs hengines
    exact ⟨hports, hsegs, hengines⟩
  · refine (State.respond_other hkp ..).trans ((tabUpd_other u.responses q k _ hkq.symm).trans ?_)
    rw [hresps]
    exact congrArg (fun r => r[k]) hresponses
  · exact (congrArg (fun b => b[k]) hbufs).trans (hbuffers k hk)
  · exact figures_eq_iff.1 ((congrArg (fun a => a[m].figures) hsegs).trans (hfigures m))

end Sys2Proof.Machine
end
